-- ==== Sys2Proof/Word.lean ====
section
/-! DEFINITION. The word types of the device and the notation `u(v)`, `s(v)`, `wrap32(z)` of
00_scope.md R8. -/

namespace Sys2Proof

/-- A word: a 32-bit value, bits 31 down to 0 (00_scope.md R8). -/
abbrev Word := BitVec 32

/-- A packed transaction of 64 bits (30_encoding.md R51). -/
abbrev TxWord := BitVec 64

/-- `u(v)`: the value of a word as an unsigned integer in `[0, 2^32)` (00_scope.md R8). -/
abbrev unsignedValue (v : Word) : Nat := v.toNat

/-- `s(v)`: the value of a word as a two's-complement integer in `[-2^31, 2^31)` (00_scope.md R8).
PRESUMED (log 13): two's complement is the spec's general knowledge K1; safe, since no stored word
depends on it (43_multiply_engine.md R118). -/
abbrev signedValue (v : Word) : Int := v.toInt

/-- `wrap32(z)`: the word `w` with `u(w) = z mod 2^32` (00_scope.md R8). -/
abbrev wrap32 (z : Int) : Word := BitVec.ofInt 32 z

end Sys2Proof
end

