-- ==== Sys2Proof/Config.lean ====
section
/-! DEFINITION. The open parameters of 00_scope.md R6. Their decided values stand in
Machine/ResetValues.lean. The fixed capacities of R5 stand in the types: 100 cells of `A` (`A_CELLS`),
10 of `B` and `C` (`B_CELLS`, `C_CELLS`), and a Size in `Fin 11`, at most 10 (`N_MAX`). -/

namespace Sys2Proof

/-- The open parameters of 00_scope.md R6, fixed for one device. A claim about the real device holds
for every value of each. -/
structure Config where
  /-- `START_REQUIRES_ENABLE`: whether START_OP is ignored when the written value has ENABLE clear
  (D9, log 1). -/
  startRequiresEnable : Bool
  /-- `DISABLED_INVALID_READ`: what a read of an invalid offset returns while disabled (D11, log 2). -/
  disabledInvalidRead : Word
  /-- `STATUS_READ_ACKS_WHEN_DISABLED`: whether a Status read while disabled deasserts the interrupt
  line (D12, log 3). -/
  statusReadAcksWhenDisabled : Bool
  /-- `CTRL_STORE_MASK`: which bits of a written control word are stored (D6, log 4). -/
  ctrlStoreMask : Word
  deriving DecidableEq, Repr

/-- `INIT_A`, `INIT_B`, `INIT_C`: the contents of the three buffers when the device is attached; any
words (00_scope.md R6, 70_reset_and_hazards.md R162). -/
structure InitCells where
  initA : Vector Word 100
  initB : Vector Word 10
  initC : Vector Word 10
  deriving DecidableEq, Repr

end Sys2Proof
end

