-- ==== Sys2Proof/Syntax.lean ====
section
/-! DEFINITION. The targets of address decode (00_scope.md R9), the transactions the device receives
(30_encoding.md R50) and the 18 classes a transaction falls in (30_encoding.md R56), which stand for
instructions: one constructor per row of spec/opcode_table.json. -/

namespace Sys2Proof

/-- The result of address decode (00_scope.md R9, 20_memory.md R32). -/
inductive Target where
  | matrixA (i : Fin 100)
  | matrixB (i : Fin 10)
  | matrixC (i : Fin 10)
  | control
  | size
  | status
  | id
  | invalid
  deriving DecidableEq, Repr

/-- A transaction of the one interface of the device (30_encoding.md R50): a direction, a byte offset
and a byte count, each any non-negative integer, and for a write a word of data. -/
inductive Transaction where
  /-- `RD(off, size)` -/
  | rd (off size : Nat)
  /-- `WR(off, size, v)` -/
  | wr (off size : Nat) (v : Word)
  deriving DecidableEq, Repr

/-- The 18 classes of 30_encoding.md R56. An operand is a cell index (R57), an invalid offset, or the
written word. The `size` of a transaction is no operand: the dispatch ignores it (R56). -/
inductive Instr where
  | rdA (i : Fin 100)
  | rdB (i : Fin 10)
  | rdC (i : Fin 10)
  | rdCtrl
  | rdSize
  | rdStatus
  | rdId
  | rdInv (off : Nat)
  | wrA (i : Fin 100) (v : Word)
  | wrB (i : Fin 10) (v : Word)
  | wrC (i : Fin 10) (v : Word)
  | wrSize (v : Word)
  | wrStatus (v : Word)
  | wrId (v : Word)
  | wrInv (off : Nat) (v : Word)
  | wrCtrlStart (v : Word)
  | wrCtrlReset (v : Word)
  | wrCtrlCfg (v : Word)
  deriving DecidableEq, Repr

end Sys2Proof
end

