-- ==== Sys2Proof/WellFormed.lean ====
section
/-! DEFINITION. Which instructions are a class of 30_encoding.md R56 with operands that belong to it, and
which of them the 64-bit transaction word of R51 can hold. Cell indices are in range by their type. -/

namespace Sys2Proof

/-- The offsets with no register, written from the rows of the address map of 20_memory.md R30 (not
from the decode rule R32): not a multiple of 4, in one of the holes, or past the last register. -/
def isHole (off : Nat) : Bool :=
  off % 4 != 0
    || (0x190 ≤ off && off < 0x200) || (0x228 ≤ off && off < 0x300) || (0x328 ≤ off && off < 0x400)
    || (0x404 ≤ off && off < 0x410) || (0x414 ≤ off && off < 0x420) || (0x424 ≤ off && off < 0x430)
    || 0x434 ≤ off

/-- The operands of an instruction belong to its class: an invalid read or write is at an offset with
no register (40_register_reads.md R78, 41_register_writes.md R91), and the command bits of a control
word are those of its class (30_encoding.md R56). -/
def Instr.wellFormed : Instr → Bool
  | .rdA _ | .rdB _ | .rdC _ | .rdCtrl | .rdSize | .rdStatus | .rdId => true
  | .rdInv off => isHole off
  | .wrA _ _ | .wrB _ _ | .wrC _ _ | .wrSize _ | .wrStatus _ | .wrId _ => true
  | .wrInv off _ => isHole off
  | .wrCtrlStart v => v.getLsbD 2
  | .wrCtrlReset v => v.getLsbD 3 && !v.getLsbD 2
  | .wrCtrlCfg v => !v.getLsbD 3 && !v.getLsbD 2

/-- The offset fits the 16 bits that the transaction word has for it (30_encoding.md R51). Only the
offset of an invalid access can be too large (20_memory.md R33). -/
def Instr.encodable : Instr → Bool
  | .rdInv off => off < 0x10000
  | .wrInv off _ => off < 0x10000
  | .rdA _ | .rdB _ | .rdC _ | .rdCtrl | .rdSize | .rdStatus | .rdId => true
  | .wrA _ _ | .wrB _ _ | .wrC _ _ | .wrSize _ | .wrStatus _ | .wrId _ => true
  | .wrCtrlStart _ | .wrCtrlReset _ | .wrCtrlCfg _ => true

end Sys2Proof
end

