-- ==== Sys2Proof/Decode.lean ====
section
/-! DEFINITION. Address decode (20_memory.md R32), dispatch (30_encoding.md R56), the transaction word
(R51) read and written, and the opcode table (spec/opcode_table.json) as data. -/

namespace Sys2Proof

/-- `decode(off)` of 20_memory.md R32, total over all offsets (R33). -/
def decodeOffset (off : Nat) : Target :=
  if off % 4 ≠ 0 then .invalid
  else if hA : off < 0x190 then .matrixA ⟨off / 4, by omega⟩
  else if hB : 0x200 ≤ off ∧ off < 0x228 then .matrixB ⟨(off - 0x200) / 4, by omega⟩
  else if hC : 0x300 ≤ off ∧ off < 0x328 then .matrixC ⟨(off - 0x300) / 4, by omega⟩
  else if off = 0x400 then .control
  else if off = 0x410 then .size
  else if off = 0x420 then .status
  else if off = 0x430 then .id
  else .invalid

/-- Dispatch of a read by its target (30_encoding.md R56). -/
def dispatchRead (off : Nat) : Instr :=
  match decodeOffset off with
  | .matrixA i => .rdA i
  | .matrixB i => .rdB i
  | .matrixC i => .rdC i
  | .control => .rdCtrl
  | .size => .rdSize
  | .status => .rdStatus
  | .id => .rdId
  | .invalid => .rdInv off

/-- Dispatch of a Control write by bits 3:2 of the value: START_OP first (30_encoding.md R56,
42_control_commands.md R106). DESIGN CHOICE (log 19): bit 3 is looked at only where bit 2 is clear (D10). -/
def dispatchControl (v : Word) : Instr :=
  if v.getLsbD 2 then .wrCtrlStart v
  else if v.getLsbD 3 then .wrCtrlReset v
  else .wrCtrlCfg v

/-- Dispatch of a write by its target (30_encoding.md R56). -/
def dispatchWrite (off : Nat) (v : Word) : Instr :=
  match decodeOffset off with
  | .matrixA i => .wrA i v
  | .matrixB i => .wrB i v
  | .matrixC i => .wrC i v
  | .control => dispatchControl v
  | .size => .wrSize v
  | .status => .wrStatus v
  | .id => .wrId v
  | .invalid => .wrInv off v

/-- DeviceModel dispatch (30_encoding.md R56): the class of a transaction. `size` is ignored
(20_memory.md R36). -/
def dispatch : Transaction → Instr
  | .rd off _ => dispatchRead off
  | .wr off _ v => dispatchWrite off v

/-! ## The transaction word -/

/-- The transaction a 64-bit word stands for (30_encoding.md R51): bit 63 `rw`, bits 55:48 `size`, bits
47:32 `off`, bits 31:0 `v`; bits 62:56, and `v` in a read, are ignored. -/
def Transaction.unpack (w : TxWord) : Transaction :=
  let off := (w.extractLsb' 32 16).toNat
  let size := (w.extractLsb' 48 8).toNat
  if w.getLsbD 63 then .wr off size (w.extractLsb' 0 32) else .rd off size

/-- The `size` and `off` fields in their places (30_encoding.md R51). -/
def packAddress (off size : Nat) : TxWord :=
  (BitVec.ofNat 8 size).setWidth 64 <<< 48 ||| (BitVec.ofNat 16 off).setWidth 64 <<< 32

/-- The word of a transaction (30_encoding.md R51): bits 62:56 zero, `v` zero in a read. -/
def Transaction.pack : Transaction → TxWord
  | .rd off size => packAddress off size
  | .wr off size v => 0x8000000000000000#64 ||| packAddress off size ||| v.setWidth 64

/-- The decoder: the class of a 64-bit transaction word. Every word decodes (30_encoding.md R58). -/
def decodeWord (w : TxWord) : Instr := dispatch (Transaction.unpack w)

/-- Why a number is no transaction word. -/
inductive DecodeRefusal where
  /-- It has a bit above bit 63 (30_encoding.md R51). -/
  | widerThanTransactionWord
  deriving DecidableEq, Repr

/-- The decoder on any number. DESIGN CHOICE (log 11): the spec gives the transaction word no layout in
bytes, so the decoder reads it as a number. -/
def decode (w : Nat) : Except DecodeRefusal Instr :=
  if w < 2 ^ 64 then .ok (decodeWord (BitVec.ofNat 64 w)) else .error .widerThanTransactionWord

/-- The byte offset of a target's register (10_state.md R10 to R19, 30_encoding.md R59). -/
def cellOffsetA (i : Fin 100) : Nat := 4 * i.val
/-- See `cellOffsetA`. -/
def cellOffsetB (i : Fin 10) : Nat := 0x200 + 4 * i.val
/-- See `cellOffsetA`. -/
def cellOffsetC (i : Fin 10) : Nat := 0x300 + 4 * i.val

/-- The transaction that stands for an instruction, with the byte count 4 of "in practice"
(20_memory.md R36). -/
def Instr.transaction : Instr → Transaction
  | .rdA i => .rd (cellOffsetA i) 4
  | .rdB i => .rd (cellOffsetB i) 4
  | .rdC i => .rd (cellOffsetC i) 4
  | .rdCtrl => .rd 0x400 4
  | .rdSize => .rd 0x410 4
  | .rdStatus => .rd 0x420 4
  | .rdId => .rd 0x430 4
  | .rdInv off => .rd off 4
  | .wrA i v => .wr (cellOffsetA i) 4 v
  | .wrB i v => .wr (cellOffsetB i) 4 v
  | .wrC i v => .wr (cellOffsetC i) 4 v
  | .wrSize v => .wr 0x410 4 v
  | .wrStatus v => .wr 0x420 4 v
  | .wrId v => .wr 0x430 4 v
  | .wrInv off v => .wr off 4 v
  | .wrCtrlStart v => .wr 0x400 4 v
  | .wrCtrlReset v => .wr 0x400 4 v
  | .wrCtrlCfg v => .wr 0x400 4 v

/-- The encoder: the transaction word of a well-formed, encodable instruction. -/
def encode (i : Instr) : TxWord := i.transaction.pack

/-- What the host asks of the decoder: the instruction whose `nbits` low bits are `w`, every bit above
them 0, numbered as spec/opcode_table.json numbers them; none where `nbits` is wider than the
transaction word. -/
def decodeTableWord (nbits w : Nat) : Option Instr :=
  if nbits ≤ 64 then (decode (w % 2 ^ nbits)).toOption else none

/-! ## The opcode table -/

/-- The row of spec/opcode_table.json an instruction belongs to, by its mnemonic. -/
def Instr.mnemonic : Instr → String
  | .rdA _ => "RD.A"
  | .rdB _ => "RD.B"
  | .rdC _ => "RD.C"
  | .rdCtrl => "RD.CTRL"
  | .rdSize => "RD.SIZE"
  | .rdStatus => "RD.STATUS"
  | .rdId => "RD.ID"
  | .rdInv _ => "RD.INV"
  | .wrA _ _ => "WR.A"
  | .wrB _ _ => "WR.B"
  | .wrC _ _ => "WR.C"
  | .wrSize _ => "WR.SIZE"
  | .wrStatus _ => "WR.STATUS"
  | .wrId _ => "WR.ID"
  | .wrInv _ _ => "WR.INV"
  | .wrCtrlStart _ => "WR.CTRL.START"
  | .wrCtrlReset _ => "WR.CTRL.RESET"
  | .wrCtrlCfg _ => "WR.CTRL.CFG"

/-- A row of spec/opcode_table.json: the bits under `mask` equal `pattern`, and, for a window row, the
offset lies in `[offLo, offHi)`; `default` marks the row chosen when no other row of its direction
matches (30_encoding.md R58). -/
structure TableRow where
  mnemonic : String
  pattern : TxWord
  mask : TxWord
  window : Option (Nat × Nat)
  default : Bool
  deriving DecidableEq, Repr

/-- The rows of spec/opcode_table.json for reads. -/
def readRows : List TableRow :=
  [⟨"RD.A", 0x0000000000000000, 0x8000000300000000, some (0x000, 0x190), false⟩,
   ⟨"RD.B", 0x0000000000000000, 0x8000000300000000, some (0x200, 0x228), false⟩,
   ⟨"RD.C", 0x0000000000000000, 0x8000000300000000, some (0x300, 0x328), false⟩,
   ⟨"RD.CTRL", 0x0000040000000000, 0x8000FFFF00000000, none, false⟩,
   ⟨"RD.SIZE", 0x0000041000000000, 0x8000FFFF00000000, none, false⟩,
   ⟨"RD.STATUS", 0x0000042000000000, 0x8000FFFF00000000, none, false⟩,
   ⟨"RD.ID", 0x0000043000000000, 0x8000FFFF00000000, none, false⟩,
   ⟨"RD.INV", 0x0000000000000000, 0x8000000000000000, none, true⟩]

/-- The rows of spec/opcode_table.json for writes. -/
def writeRows : List TableRow :=
  [⟨"WR.A", 0x8000000000000000, 0x8000000300000000, some (0x000, 0x190), false⟩,
   ⟨"WR.B", 0x8000000000000000, 0x8000000300000000, some (0x200, 0x228), false⟩,
   ⟨"WR.C", 0x8000000000000000, 0x8000000300000000, some (0x300, 0x328), false⟩,
   ⟨"WR.SIZE", 0x8000041000000000, 0x8000FFFF00000000, none, false⟩,
   ⟨"WR.STATUS", 0x8000042000000000, 0x8000FFFF00000000, none, false⟩,
   ⟨"WR.ID", 0x8000043000000000, 0x8000FFFF00000000, none, false⟩,
   ⟨"WR.INV", 0x8000000000000000, 0x8000000000000000, none, true⟩,
   ⟨"WR.CTRL.START", 0x8000040000000004, 0x8000FFFF00000004, none, false⟩,
   ⟨"WR.CTRL.RESET", 0x8000040000000008, 0x8000FFFF0000000C, none, false⟩,
   ⟨"WR.CTRL.CFG", 0x8000040000000000, 0x8000FFFF0000000C, none, false⟩]

/-- The 18 rows of spec/opcode_table.json. -/
def opcodeTable : List TableRow := readRows ++ writeRows

/-- A word has the row's bits under its mask and, for a window row, an offset in the window. -/
def TableRow.selects (r : TableRow) (w : TxWord) : Bool :=
  (w &&& r.mask) == r.pattern &&
    match r.window with
    | none => true
    | some (lo, hi) => lo ≤ (w.extractLsb' 32 16).toNat && (w.extractLsb' 32 16).toNat < hi

/-- The rows that claim a word: the rows other than the default rows that select it, and where there
is none, the default row of its direction (30_encoding.md R58). -/
def rowsOf (w : TxWord) : List TableRow :=
  match opcodeTable.filter (fun r => !r.default && r.selects w) with
  | [] => opcodeTable.filter (fun r => r.default && r.selects w)
  | found => found

end Sys2Proof
end

