-- ==== Sys2Proof/Machine/ResetValues.lean ====
section
/-! DEFINITION. The decided values of the open parameters (00_scope.md R6) and the values of the scalar
registers after reset (70_reset_and_hazards.md R160, R161). -/

namespace Sys2Proof

/-- The values the spec decides for its parameters (00_scope.md R6). DESIGN CHOICE of the spec, each
unsafe (log 1 to 4): D9 `true`, D11 `0x00000000`, D12 `false`, D6 `0xFFFFFFFF`. -/
def Config.decided : Config where
  startRequiresEnable := true
  disabledInvalidRead := 0x00000000#32
  statusReadAcksWhenDisabled := false
  ctrlStoreMask := 0xFFFFFFFF#32

/-- The cells `State.reset` starts with. DESIGN CHOICE (log 7), unsafe: the spec gives no value
(70_reset_and_hazards.md R162), and its test vectors take all cells zero. -/
def InitCells.zero : InitCells where
  initA := Vector.replicate 100 0#32
  initB := Vector.replicate 10 0#32
  initC := Vector.replicate 10 0#32

namespace Machine

/-- `CTRL` after reset: the device starts disabled (70_reset_and_hazards.md R161). DESIGN CHOICE of the
spec, D16 (log 6), unsafe. -/
def resetCtrl : Word := 0x00000000#32

/-- `SIZE` after reset (70_reset_and_hazards.md R161). DESIGN CHOICE of the spec, D16 (log 6), unsafe. -/
def resetSize : Fin 11 := 0

/-- `STATUS` after reset: "cleared only by RESET_STAT or device reset" (70_reset_and_hazards.md R160). -/
def resetStatus : BitVec 2 := 0b00#2

/-- `IRQ` after reset: deasserted (70_reset_and_hazards.md R161). DESIGN CHOICE of the spec, D16
(log 6), unsafe. -/
def resetIrq : Bool := false

end Machine

end Sys2Proof
end

