-- ==== Sys2Proof/Machine/State.lean ====
section
/-! DEFINITION. The state of the machine, the reasons a step can stop, and the state after reset. -/

namespace Sys2Proof.Machine

/-- The machine's state. The first seven fields are the device's whole state `(A, B, C, CTRL, SIZE,
STATUS, IRQ)` (10_state.md, opening and R21). The last three are the model's: the parameters of the
device (log 5), the transactions the host has still to issue (log 8) and the words the reads have
returned (log 10). -/
structure State where
  /-- MatrixA (10_state.md R10). -/
  A : Vector Word 100
  /-- MatrixB (10_state.md R11). -/
  B : Vector Word 10
  /-- MatrixC (10_state.md R12). -/
  C : Vector Word 10
  /-- The Control register (10_state.md R15, R16). -/
  ctrl : Word
  /-- The Size register, an integer in `0..10` (10_state.md R17; log 25). -/
  size : Fin 11
  /-- The Status register: bit 0 OP_STARTED, bit 1 OP_ENDED (10_state.md R18). -/
  status : BitVec 2
  /-- The level of the interrupt line (10_state.md R20). -/
  irq : Bool
  /-- The open parameters (00_scope.md R6), which no step changes. -/
  config : Config
  /-- The transactions the host has still to issue, the next one first (10_state.md R22). -/
  pending : List Transaction
  /-- The words the reads have returned, the oldest first (10_state.md R24). -/
  returned : List Word
  deriving DecidableEq, Repr

/-- The reasons the machine stops with a fault: none, since "The device raises no exception"
(60_exceptions.md R140). Nobody raises a fault, so the type is safe: it can hide no behaviour (log 27). -/
inductive Fault where
  deriving DecidableEq, Repr

/-- The reasons an instruction has no meaning. -/
inductive Refusal where
  /-- Raised by an arm of `exec` for an instruction that has no meaning yet; no arm does. Safe: the
  machine stops where the device goes on. -/
  | notModelled (mnemonic : String)
  deriving DecidableEq, Repr

/-- The state when the device is attached, for any parameters and any contents of the buffers
(70_reset_and_hazards.md R160 to R163). -/
def State.attach (cfg : Config) (init : InitCells) : State where
  A := init.initA
  B := init.initB
  C := init.initC
  ctrl := resetCtrl
  size := resetSize
  status := resetStatus
  irq := resetIrq
  config := cfg
  pending := []
  returned := []

/-- The machine right after reset: the decided parameters, and every cell 0 (DESIGN CHOICE, log 7). -/
def State.reset : State := State.attach Config.decided InitCells.zero

end Sys2Proof.Machine
end

