-- ==== Sys2Proof/Machine/Operands.lean ====
section
/-! DEFINITION. The operands of the transactions: the words a register reads as, the clamp of a Size
write, and the matrix and vector elements the multiply reads. -/

namespace Sys2Proof.Machine

/-- `ID_VALUE` as a read returns it (30_encoding.md R55). DESIGN CHOICE of the spec, D20 (log 14): bits
31:16 are zero; unsafe. -/
def idWord : Word := 0x0000C1A0#32

/-- `SENTINEL`: what a read of an invalid offset returns while enabled (40_register_reads.md R78). -/
def sentinel : Word := 0xA0E0A0E0#32

/-- What a read returns while disabled (40_register_reads.md R70). -/
def disabledWord : Word := 0x00000000#32

/-- The Size word, `zext_32(SIZE)` (30_encoding.md R54). -/
def sizeWord (n : Fin 11) : Word := BitVec.ofNat 32 n.val

/-- The Status word, `zext_32(STATUS)` (30_encoding.md R53). -/
def statusWord (b : BitVec 2) : Word := b.setWidth 32

/-- What a Size write stores: `min(u(v), 10)` (41_register_writes.md R88). DESIGN CHOICE of the spec,
D13 (log 20): the comparison is unsigned on all 32 bits; unsafe. -/
def clampSize (v : Word) : Fin 11 :=
  if h : unsignedValue v > 10 then ⟨10, by decide⟩ else ⟨unsignedValue v, by omega⟩

/-- The part of a written control word that is stored: `v & CTRL_STORE_MASK` (42_control_commands.md
R101). -/
def storedControl (cfg : Config) (v : Word) : Word := v &&& cfg.ctrlStoreMask

/-- The packed index `r * n + c` is a cell of MatrixA (43_multiply_engine.md R115). -/
theorem packedIndex_lt (n : Fin 11) (r c : Fin n.val) : r.val * n.val + c.val < 100 := by
  have hn : n.val ≤ 10 := Nat.le_of_lt_succ n.isLt
  have hr : r.val + 1 ≤ n.val := r.isLt
  have hc : c.val < n.val := c.isLt
  calc r.val * n.val + c.val < r.val * n.val + n.val := by omega
    _ = (r.val + 1) * n.val := by ring
    _ ≤ n.val * n.val := Nat.mul_le_mul_right _ hr
    _ ≤ 10 * 10 := Nat.mul_le_mul hn hn

/-- Element `(r, c)` of the matrix, `A[r * n + c]`: row-major with stride `n` (43_multiply_engine.md
R115). DESIGN CHOICE of the spec, D14 (log 15); unsafe. -/
def matrixElement (A : Vector Word 100) (n : Fin 11) (r c : Fin n.val) : Word :=
  A[r.val * n.val + c.val]'(packedIndex_lt n r c)

/-- Element `c` of the vector, `B[c]` (43_multiply_engine.md R115). -/
def vectorElement (B : Vector Word 10) (n : Fin 11) (c : Fin n.val) : Word :=
  B[c.val]'(by have h1 := n.isLt; have h2 := c.isLt; omega)

end Sys2Proof.Machine
end

