-- ==== Sys2Proof/Machine/Engine.lean ====
section
/-! DEFINITION. The MultiplyEngine (43_multiply_engine.md). -/

namespace Sys2Proof.Machine

/-- The exact integer dot product of row `r` with the vector (43_multiply_engine.md R116). -/
def exactDot (A : Vector Word 100) (B : Vector Word 10) (n : Fin 11) (r : Fin n.val) :
    Int :=
  (List.ofFn fun c : Fin n.val =>
    signedValue (matrixElement A n r c) * signedValue (vectorElement B n c)).sum

/-- `T[r]`: the dot product wrapped to a word, with no saturation (43_multiply_engine.md R116, R118). -/
def rowProduct (A : Vector Word 100) (B : Vector Word 10) (n : Fin 11) (r : Fin n.val) :
    Word :=
  wrap32 (exactDot A B n r)

/-- `MULTIPLY()` (43_multiply_engine.md R116): `C[0]` to `C[n-1]` are written, the other cells of `C`
keep their values (R117). DESIGN CHOICE of the spec, D21 (log 16): the upper cells are not cleared;
unsafe. -/
def State.multiply (s : State) : State :=
  { s with
    C := Vector.ofFn fun r : Fin 10 =>
      if h : r.val < s.size.val then rowProduct s.A s.B s.size ⟨r.val, h⟩ else s.C[r.val] }

end Sys2Proof.Machine
end

