-- ==== Sys2Proof/Machine/Flags.lean ====
section
/-! DEFINITION. The flags of the device: the bits of a control word (30_encoding.md R52), the two bits of
`STATUS` (10_state.md R18), the interrupt line (60_exceptions.md R143), and the state of the
ControlStatusMachine, which is a function of them (42_control_commands.md R100). -/

namespace Sys2Proof.Machine

/-- ENABLE, bit 0 of a control word (30_encoding.md R52). -/
def enableBit (v : Word) : Bool := v.getLsbD 0

/-- IRQ_ENABLE, bit 1 of a control word (30_encoding.md R52). -/
def irqEnableBit (v : Word) : Bool := v.getLsbD 1

/-- Whether the device is enabled: `CTRL[0]` (00_scope.md R9). -/
def State.enabled (s : State) : Bool := enableBit s.ctrl

/-- `STATUS[0] <- 1`: OP_STARTED (42_control_commands.md R103). -/
def State.setStarted (s : State) : State := { s with status := s.status ||| 0b01#2 }

/-- `STATUS[1] <- 1`: OP_ENDED (42_control_commands.md R103). -/
def State.setEnded (s : State) : State := { s with status := s.status ||| 0b10#2 }

/-- `STATUS <- 0b00` (42_control_commands.md R105). -/
def State.clearStatus (s : State) : State := { s with status := 0b00#2 }

/-- `IRQ <- 1` (60_exceptions.md R144): the nearest the device comes to taking an exception. -/
def State.assertIrq (s : State) : State := { s with irq := true }

/-- `IRQ <- 0` (60_exceptions.md R145, R146): the acknowledgement, the counterpart of a return from
trap (R150). -/
def State.deassertIrq (s : State) : State := { s with irq := false }

/-- The four states of the ControlStatusMachine (42_control_commands.md R100). -/
inductive Mode where
  | disabled
  | idle
  | running
  | ended
  deriving DecidableEq, Repr

/-- The state of the ControlStatusMachine, "a function of stored bits, not a separate variable"
(42_control_commands.md R100). -/
def State.mode (s : State) : Mode :=
  if !s.enabled then .disabled
  else if s.status.getLsbD 1 then .ended
  else if s.status.getLsbD 0 then .running
  else .idle

end Sys2Proof.Machine
end

