-- ==== Sys2Proof/Machine/Ops.lean ====
section
/-! DEFINITION. The named operations over the registers, shared by the meanings. The device takes no
exception and returns from none (60_exceptions.md R140, R149), so there is no operation for either: what
stands in their place is the interrupt line, `assertIrq` and `deassertIrq` of Machine/Flags.lean. -/

namespace Sys2Proof.Machine

/-- A read returns the word `w` to the host (10_state.md R24; log 10). -/
def State.answer (w : Word) (s : State) : State := { s with returned := s.returned ++ [w] }

/-- The disable gate of 40_register_reads.md R70: a read returns `live` on an enabled device and
`gated` on a disabled one, by `CTRL[0]` as it stands when the transaction starts. -/
def State.gatedRead (gated live : Word) (s : State) : State :=
  s.answer (if s.enabled then live else gated)

/-- Whether a Status read deasserts the line: on an enabled device always (40_register_reads.md R76),
on a disabled one by the parameter `STATUS_READ_ACKS_WHEN_DISABLED` (00_scope.md R6, D12). -/
def State.statusReadAcks (s : State) : Bool := s.enabled || s.config.statusReadAcksWhenDisabled

/-- `A[i] <- v` (41_register_writes.md R85). -/
def State.storeA (i : Fin 100) (v : Word) (s : State) : State := { s with A := s.A.set i.val v }

/-- `B[i] <- v` (41_register_writes.md R86). -/
def State.storeB (i : Fin 10) (v : Word) (s : State) : State := { s with B := s.B.set i.val v }

/-- `SIZE <- min(u(v), 10)` (41_register_writes.md R88). -/
def State.storeSize (v : Word) (s : State) : State := { s with size := clampSize v }

/-- `CTRL <- v & CTRL_STORE_MASK` (42_control_commands.md R101). -/
def State.storeCtrl (v : Word) (s : State) : State := { s with ctrl := storedControl s.config v }

/-- Whether START_OP in the written value `v` acts: `v[0] = 1 or not START_REQUIRES_ENABLE`
(42_control_commands.md R101, R109; log 1). -/
def State.startAllowed (v : Word) (s : State) : Bool :=
  enableBit v || !s.config.startRequiresEnable

/-- `START()` of 42_control_commands.md R103, with IRQ_ENABLE taken from the value `v` being written
(R104). -/
def State.start (v : Word) (s : State) : State :=
  let done := s.setStarted.multiply.setEnded
  if irqEnableBit v then done.assertIrq else done

/-- `RESET()` of 42_control_commands.md R105. -/
def State.resetStat (s : State) : State := s.clearStatus.deassertIrq

/-- The word a target's register holds: what a live read of it returns (40_register_reads.md R71 to
R78). The frames of the stores speak through it. -/
def State.wordAt (s : State) : Target → Word
  | .matrixA i => s.A[i.val]
  | .matrixB i => s.B[i.val]
  | .matrixC i => s.C[i.val]
  | .control => s.ctrl
  | .size => sizeWord s.size
  | .status => statusWord s.status
  | .id => idWord
  | .invalid => sentinel

end Sys2Proof.Machine
end

