-- ==== Sys2Proof/Machine/Control.lean ====
section
/-! DEFINITION. The meanings of the Control writes (42_control_commands.md R101): the value is stored
first, then the command bits of the written value act (DESIGN CHOICE of the spec, D7 and D8, log 17 and
18; unsafe). The stored command bits are never looked at (R102). -/

namespace Sys2Proof.Machine

/-- `WR.CTRL.START` (42_control_commands.md R101, R103, R109): RESET_STAT in the same value is ignored
(R106). -/
def execWrCtrlStart (v : Word) (s : State) : Host.Outcome State Fault Refusal :=
  let stored := s.storeCtrl v
  .next (if stored.startAllowed v then stored.start v else stored)

/-- `WR.CTRL.RESET` (42_control_commands.md R101, R105). -/
def execWrCtrlReset (v : Word) (s : State) : Host.Outcome State Fault Refusal :=
  .next (s.storeCtrl v).resetStat

/-- `WR.CTRL.CFG` (42_control_commands.md R101, R107). -/
def execWrCtrlCfg (v : Word) (s : State) : Host.Outcome State Fault Refusal :=
  .next (s.storeCtrl v)

end Sys2Proof.Machine
end

