-- ==== Sys2Proof/Machine/Reads.lean ====
section
/-! DEFINITION. The meanings of the read transactions (40_register_reads.md). -/

namespace Sys2Proof.Machine

/-- `RD.A` (40_register_reads.md R70, R71). -/
def execRdA (i : Fin 100) (s : State) : Host.Outcome State Fault Refusal :=
  .next (s.gatedRead disabledWord s.A[i.val])

/-- `RD.B` (40_register_reads.md R70, R72). -/
def execRdB (i : Fin 10) (s : State) : Host.Outcome State Fault Refusal :=
  .next (s.gatedRead disabledWord s.B[i.val])

/-- `RD.C` (40_register_reads.md R70, R73). -/
def execRdC (i : Fin 10) (s : State) : Host.Outcome State Fault Refusal :=
  .next (s.gatedRead disabledWord s.C[i.val])

/-- `RD.CTRL` (40_register_reads.md R70, R74). -/
def execRdCtrl (s : State) : Host.Outcome State Fault Refusal :=
  .next (s.gatedRead disabledWord s.ctrl)

/-- `RD.SIZE` (40_register_reads.md R70, R75). -/
def execRdSize (s : State) : Host.Outcome State Fault Refusal :=
  .next (s.gatedRead disabledWord (sizeWord s.size))

/-- `RD.STATUS` (40_register_reads.md R70, R76): the value is taken, then the line is deasserted. -/
def execRdStatus (s : State) : Host.Outcome State Fault Refusal :=
  let answered := s.gatedRead disabledWord (statusWord s.status)
  .next (if s.statusReadAcks then answered.deassertIrq else answered)

/-- `RD.ID` (40_register_reads.md R70, R77). -/
def execRdId (s : State) : Host.Outcome State Fault Refusal :=
  .next (s.gatedRead disabledWord idWord)

/-- `RD.INV` (40_register_reads.md R70, R78): while disabled the answer is the parameter
`DISABLED_INVALID_READ` (D11, log 2), whatever the offset. -/
def execRdInv (_off : Nat) (s : State) : Host.Outcome State Fault Refusal :=
  .next (s.gatedRead s.config.disabledInvalidRead sentinel)

end Sys2Proof.Machine
end

