-- ==== Sys2Proof/Machine/Writes.lean ====
section
/-! DEFINITION. The meanings of the write transactions other than Control writes (41_register_writes.md).
None is gated by ENABLE (R92). -/

namespace Sys2Proof.Machine

/-- `WR.A` (41_register_writes.md R85). -/
def execWrA (i : Fin 100) (v : Word) (s : State) : Host.Outcome State Fault Refusal :=
  .next (s.storeA i v)

/-- `WR.B` (41_register_writes.md R86). -/
def execWrB (i : Fin 10) (v : Word) (s : State) : Host.Outcome State Fault Refusal :=
  .next (s.storeB i v)

/-- `WR.C` (41_register_writes.md R87): accepted and dropped. -/
def execWrC (_i : Fin 10) (_v : Word) (s : State) : Host.Outcome State Fault Refusal := .next s

/-- `WR.SIZE` (41_register_writes.md R88). -/
def execWrSize (v : Word) (s : State) : Host.Outcome State Fault Refusal := .next (s.storeSize v)

/-- `WR.STATUS` (41_register_writes.md R89): dropped. DESIGN CHOICE of the spec, D17 (log 21); unsafe. -/
def execWrStatus (_v : Word) (s : State) : Host.Outcome State Fault Refusal := .next s

/-- `WR.ID` (41_register_writes.md R90): accepted and dropped. -/
def execWrId (_v : Word) (s : State) : Host.Outcome State Fault Refusal := .next s

/-- `WR.INV` (41_register_writes.md R91): dropped. -/
def execWrInv (_off : Nat) (_v : Word) (s : State) : Host.Outcome State Fault Refusal := .next s

end Sys2Proof.Machine
end

