-- ==== Sys2Proof/Machine/Dispatch.lean ====
section
/-! DEFINITION. One arm per class of transaction (30_encoding.md R56). -/

namespace Sys2Proof.Machine

def exec (i : Instr) (s : State) : Host.Outcome State Fault Refusal :=
  match i with
  | .rdA n => Sys2Proof.Machine.execRdA n s
  | .rdB n => Sys2Proof.Machine.execRdB n s
  | .rdC n => Sys2Proof.Machine.execRdC n s
  | .rdCtrl => Sys2Proof.Machine.execRdCtrl s
  | .rdSize => Sys2Proof.Machine.execRdSize s
  | .rdStatus => Sys2Proof.Machine.execRdStatus s
  | .rdId => Sys2Proof.Machine.execRdId s
  | .rdInv off => Sys2Proof.Machine.execRdInv off s
  | .wrA n v => Sys2Proof.Machine.execWrA n v s
  | .wrB n v => Sys2Proof.Machine.execWrB n v s
  | .wrC n v => Sys2Proof.Machine.execWrC n v s
  | .wrSize v => Sys2Proof.Machine.execWrSize v s
  | .wrStatus v => Sys2Proof.Machine.execWrStatus v s
  | .wrId v => Sys2Proof.Machine.execWrId v s
  | .wrInv off v => Sys2Proof.Machine.execWrInv off v s
  | .wrCtrlStart v => Sys2Proof.Machine.execWrCtrlStart v s
  | .wrCtrlReset v => Sys2Proof.Machine.execWrCtrlReset v s
  | .wrCtrlCfg v => Sys2Proof.Machine.execWrCtrlCfg v s

end Sys2Proof.Machine
end

