-- ==== Sys2Proof/Machine/Step.lean ====
section
/-! DEFINITION. One step: the device answers the next transaction of the host's list. -/

namespace Sys2Proof.Machine

/-- One transaction, whole (20_memory.md R37, R39): the head of the host's list is taken off it and its
class executed. With no transaction left the run is over (10_state.md R22, R24) and nothing changes
(60_exceptions.md R153). DESIGN CHOICE (log 9), safe. -/
def step (s : State) : Host.Outcome State Fault Refusal :=
  match s.pending with
  | [] => .next s
  | t :: rest => exec (dispatch t) { s with pending := rest }

/-- The host issues, next of all, the transaction whose word has the low `nbits` bits `w` and zeros
above (log 8). -/
def State.withFetchWord (s : State) (nbits w : Nat) : State :=
  { s with pending := Transaction.unpack (BitVec.ofNat 64 (w % 2 ^ nbits)) :: s.pending }

end Sys2Proof.Machine
end

