-- ==== Sys2Proof/Safety.lean ====
section
/-! DEFINITION. What counts as a safe run: the invariant of the registers, and a machine that never
stops. -/

namespace Sys2Proof.Machine

/-- What holds of the registers at every transaction boundary: `STATUS` is `0b00` or `0b11` (10_state.md
R18), an asserted line has a completed multiply behind it (60_exceptions.md R144 with
42_control_commands.md R105), and `CTRL` holds no bit outside `CTRL_STORE_MASK` (10_state.md R16). -/
abbrev State.Inv (s : State) : Prop :=
  (s.status = 0b00#2 ∨ s.status = 0b11#2) ∧
  (s.irq = true → s.status = 0b11#2) ∧
  s.ctrl &&& s.config.ctrlStoreMask = s.ctrl

/-- `k` steps, stopping at a fault or a refusal: the total order of 20_memory.md R39, one transaction
after the other. -/
def run : Nat → State → Host.Outcome State Fault Refusal
  | 0, s => .next s
  | k + 1, s =>
    match step s with
    | .next t => run k t
    | .fault f => .fault f
    | .refused r => .refused r

/-- A machine that never stops from `s`: every number of steps ends in a state (60_exceptions.md R140). -/
def neverStops (s : State) : Prop := ∀ k, ∃ t, run k s = .next t

/-- A run of the host's program: one step for each transaction the host has still to issue (10_state.md
R22, R24). -/
def runProgram (s : State) : Host.Outcome State Fault Refusal := run s.pending.length s

/-- Two states with the same device state `(A, B, C, CTRL, SIZE, STATUS, IRQ)` (10_state.md, opening). -/
abbrev SameDevice (s t : State) : Prop :=
  s.A = t.A ∧ s.B = t.B ∧ s.C = t.C ∧ s.ctrl = t.ctrl ∧ s.size = t.size ∧ s.status = t.status ∧
    s.irq = t.irq

/-- Two states that differ at most in the bits of `CTRL`. -/
abbrev SameButCtrl (s t : State) : Prop :=
  s.A = t.A ∧ s.B = t.B ∧ s.C = t.C ∧ s.size = t.size ∧ s.status = t.status ∧ s.irq = t.irq ∧
    s.config = t.config ∧ s.pending = t.pending ∧ s.returned = t.returned

end Sys2Proof.Machine
end

