-- ==== Sys2Proof/Certificates/Slice0/Obligations.lean ====
section
/-! DEFINITION. The statements about the model, for the provers. The docstring of each names the rule of
spec/ it formalises, and the decision (D<n>) and log entry of any clause that rests on one. -/

open Sys2Proof Sys2Proof.Machine

/-! ## The transaction word and the dispatch -/

/-- Words written out from the packing of 30_encoding.md R51 (D5, log 11), one of each class, decode to the
class that the programs of 95_test_vectors.md list for them. -/
def Obligations.ListedWordsDecodeToTheirClass : Prop :=
  decodeWord 0x0004000000000000#64 = .rdA 0 ∧ decodeWord 0x0004018C00000000#64 = .rdA 99 ∧
  decodeWord 0x0004020000000000#64 = .rdB 0 ∧ decodeWord 0x0004030400000000#64 = .rdC 1 ∧
  decodeWord 0x0004040000000000#64 = .rdCtrl ∧ decodeWord 0x0004041000000000#64 = .rdSize ∧
  decodeWord 0x0004042000000000#64 = .rdStatus ∧ decodeWord 0x0004043000000000#64 = .rdId ∧
  decodeWord 0x0004019000000000#64 = .rdInv 0x190 ∧ decodeWord 0x0004000200000000#64 = .rdInv 2 ∧
  decodeWord 0x80040008FFFFFFFE#64 = .wrA 2 0xFFFFFFFE#32 ∧
  decodeWord 0x80040204FFFFFFF8#64 = .wrB 1 0xFFFFFFF8#32 ∧
  decodeWord 0x80040300DEADBEEF#64 = .wrC 0 0xDEADBEEF#32 ∧
  decodeWord 0x8004041000000064#64 = .wrSize 0x64#32 ∧
  decodeWord 0x8004042000000003#64 = .wrStatus 3#32 ∧
  decodeWord 0x8004043000001234#64 = .wrId 0x1234#32 ∧
  decodeWord 0x8004000200000009#64 = .wrInv 2 9#32 ∧
  decodeWord 0x800404000000000D#64 = .wrCtrlStart 0xD#32 ∧
  decodeWord 0x8004040000000009#64 = .wrCtrlReset 9#32 ∧
  decodeWord 0x8004040000000003#64 = .wrCtrlCfg 3#32

/-- The decoder gives every well-formed instruction back from its word, with every operand at every value
the 64-bit word of 30_encoding.md R51 admits (D5, log 11). -/
def Obligations.DecodeOfEncodeIsTheInstruction : Prop :=
  ∀ i : Instr, i.wellFormed = true → i.encodable = true → decodeWord (encode i) = i

/-- The other direction: encoding the decoded instruction keeps the bits the dispatch reads (`rw`, `off`,
and `v` in a write), sets `size` to 4 and every ignored bit to 0 (30_encoding.md R51, R56). -/
def Obligations.EncodeOfDecodeKeepsTheReadBits : Prop :=
  ∀ w : TxWord, encode (decodeWord w) =
    (w &&& (if w.getLsbD 63 then 0x8000FFFFFFFFFFFF#64 else 0x8000FFFF00000000#64)) |||
      0x0004000000000000#64

/-- The rows of spec/opcode_table.json partition the transaction words, and the one row that claims a word
is that of the decoded instruction (30_encoding.md, section 4). -/
def Obligations.OpcodeTableRowsPartitionTheWords : Prop :=
  ∀ w : TxWord, (rowsOf w).map TableRow.mnemonic = [(decodeWord w).mnemonic]

/-- 30_encoding.md R56: the class of a transaction, by direction, target and bits 3:2 of a control word;
`size` and bits 62:56 of the word are ignored. -/
def Obligations.EachTransactionHasTheClassOfItsTarget : Prop :=
  (∀ off size : Nat,
    (∀ i, decodeOffset off = .matrixA i → dispatch (.rd off size) = .rdA i) ∧
    (∀ i, decodeOffset off = .matrixB i → dispatch (.rd off size) = .rdB i) ∧
    (∀ i, decodeOffset off = .matrixC i → dispatch (.rd off size) = .rdC i) ∧
    (decodeOffset off = .control → dispatch (.rd off size) = .rdCtrl) ∧
    (decodeOffset off = .size → dispatch (.rd off size) = .rdSize) ∧
    (decodeOffset off = .status → dispatch (.rd off size) = .rdStatus) ∧
    (decodeOffset off = .id → dispatch (.rd off size) = .rdId) ∧
    (decodeOffset off = .invalid → dispatch (.rd off size) = .rdInv off)) ∧
  (∀ (off size : Nat) (v : Word),
    (∀ i, decodeOffset off = .matrixA i → dispatch (.wr off size v) = .wrA i v) ∧
    (∀ i, decodeOffset off = .matrixB i → dispatch (.wr off size v) = .wrB i v) ∧
    (∀ i, decodeOffset off = .matrixC i → dispatch (.wr off size v) = .wrC i v) ∧
    (decodeOffset off = .size → dispatch (.wr off size v) = .wrSize v) ∧
    (decodeOffset off = .status → dispatch (.wr off size v) = .wrStatus v) ∧
    (decodeOffset off = .id → dispatch (.wr off size v) = .wrId v) ∧
    (decodeOffset off = .invalid → dispatch (.wr off size v) = .wrInv off v) ∧
    (decodeOffset off = .control → v.getLsbD 2 = true →
      dispatch (.wr off size v) = .wrCtrlStart v) ∧
    (decodeOffset off = .control → v.getLsbD 3 = true → v.getLsbD 2 = false →
      dispatch (.wr off size v) = .wrCtrlReset v) ∧
    (decodeOffset off = .control → v.getLsbD 3 = false → v.getLsbD 2 = false →
      dispatch (.wr off size v) = .wrCtrlCfg v)) ∧
  (∀ w w' : TxWord, w.getLsbD 63 = w'.getLsbD 63 → w.extractLsb' 32 16 = w'.extractLsb' 32 16 →
    w.extractLsb' 0 32 = w'.extractLsb' 0 32 → decodeWord w = decodeWord w')

/-- Every transaction, at any offset, is of a class its operands belong to (30_encoding.md R56, R58). -/
def Obligations.EveryTransactionDispatchesWellFormed : Prop :=
  ∀ t : Transaction, (dispatch t).wellFormed = true

/-- 20_memory.md R32: which offsets decode to which target, both ways; the offsets of `Invalid` are the
holes of the address map and the misaligned offsets. -/
def Obligations.DecodeFollowsTheAddressMap : Prop :=
  ∀ off : Nat,
    (∀ i : Fin 100, decodeOffset off = .matrixA i ↔ off = 4 * i.val) ∧
    (∀ i : Fin 10, decodeOffset off = .matrixB i ↔ off = 0x200 + 4 * i.val) ∧
    (∀ i : Fin 10, decodeOffset off = .matrixC i ↔ off = 0x300 + 4 * i.val) ∧
    (decodeOffset off = .control ↔ off = 0x400) ∧
    (decodeOffset off = .size ↔ off = 0x410) ∧
    (decodeOffset off = .status ↔ off = 0x420) ∧
    (decodeOffset off = .id ↔ off = 0x430) ∧
    (decodeOffset off = .invalid ↔ isHole off = true)

/-! ## The step -/

/-- A step runs the class of the next transaction of the host's list, which it takes off the list
(10_state.md R22, 20_memory.md R37), whether the transaction is given as such or as a word; with none left
it changes nothing (the model's choice, log 9). -/
def Obligations.StepRunsTheNextTransaction : Prop :=
  (∀ (s : State) (t : Transaction) (rest : List Transaction), s.pending = t :: rest →
    step s = exec (dispatch t) { s with pending := rest }) ∧
  (∀ (s : State) (w : TxWord),
    step (s.withFetchWord 64 w.toNat) = exec (decodeWord w) s) ∧
  (∀ s : State, s.pending = [] → step s = .next s)

/-- The byte count of a transaction changes nothing (20_memory.md R36). -/
def Obligations.TheByteCountIsIgnored : Prop :=
  ∀ (s : State) (off size : Nat) (v : Word) (rest : List Transaction),
    step { s with pending := .rd off size :: rest } =
      step { s with pending := .rd off 4 :: rest } ∧
    step { s with pending := .wr off size v :: rest } =
      step { s with pending := .wr off 4 v :: rest }

/-! ## Reads -/

/-- 40_register_reads.md R71, R72, R73: on an enabled device a read of a cell returns the cell, whatever
`SIZE` is, and changes nothing else. -/
def Obligations.EnabledReadsReturnTheCell : Prop :=
  ∀ (s : State) (size : Nat), s.ctrl.getLsbD 0 = true →
    (∀ i : Fin 100, dispatch (.rd (4 * i.val) size) = .rdA i ∧
      exec (.rdA i) s = .next { s with returned := s.returned ++ [s.A[i.val]] }) ∧
    (∀ i : Fin 10, dispatch (.rd (0x200 + 4 * i.val) size) = .rdB i ∧
      exec (.rdB i) s = .next { s with returned := s.returned ++ [s.B[i.val]] }) ∧
    (∀ i : Fin 10, dispatch (.rd (0x300 + 4 * i.val) size) = .rdC i ∧
      exec (.rdC i) s = .next { s with returned := s.returned ++ [s.C[i.val]] })

/-- 40_register_reads.md R74, R75: on an enabled device a read of Control returns `CTRL` whole, so with
bit 0 set, and a read of Size returns `SIZE` zero-extended, at most 10; neither changes anything else. The
zero extension of `SIZE` is the spec's decision D20 (log 14). (On a disabled device: DisabledReadsAreGated.) -/
def Obligations.EnabledReadsReturnControlAndSize : Prop :=
  ∀ s : State, s.ctrl.getLsbD 0 = true →
    exec .rdCtrl s = .next { s with returned := s.returned ++ [s.ctrl] } ∧
    ∃ w : Word, w.toNat = s.size.val ∧ w.toNat ≤ 10 ∧
      exec .rdSize s = .next { s with returned := s.returned ++ [w] }

/-- 40_register_reads.md R76: on an enabled device a read of Status returns `STATUS` zero-extended and
deasserts the line, asserted or not; it does not clear the status bits. The possible results are `0` and
`3`, in a state that meets the invariant (10_state.md R18). That bits 31:2 read as zero is the spec's
decision D20 (log 14). (On a disabled device: DisabledReadsAreGated.) -/
def Obligations.EnabledStatusReadDeassertsTheLine : Prop :=
  ∀ s : State, s.ctrl.getLsbD 0 = true →
    exec .rdStatus s =
      .next { s with returned := s.returned ++ [s.status.setWidth 32], irq := false } ∧
    (s.Inv → s.status.setWidth 32 = 0x00000000#32 ∨ s.status.setWidth 32 = 0x00000003#32)

/-- A read of Id on an enabled device returns `0x0000C1A0` in every state (40_register_reads.md, section
2). That bits 31:16 are zero is the spec's decision D20 (log 14). -/
def Obligations.EnabledIdReadReturnsTheConstant : Prop :=
  ∀ s : State, s.ctrl.getLsbD 0 = true →
    exec .rdId s = .next { s with returned := s.returned ++ [0x0000C1A0#32] }

/-- 40_register_reads.md R78: on an enabled device a read of an offset with no register, misaligned offsets
and offsets from `0x500` up among them, returns the sentinel and changes nothing else. -/
def Obligations.EnabledInvalidReadReturnsTheSentinel : Prop :=
  ∀ (s : State) (off size : Nat), s.ctrl.getLsbD 0 = true →
    (isHole off = true → dispatch (.rd off size) = .rdInv off) ∧
    exec (.rdInv off) s = .next { s with returned := s.returned ++ [0xA0E0A0E0#32] }

/-- The disable gate (40_register_reads.md, section 1): on a disabled device every read returns `0` and
changes nothing else, but that a read of an invalid offset returns `DISABLED_INVALID_READ` (D11, log 2) and
that a Status read deasserts the line where `STATUS_READ_ACKS_WHEN_DISABLED` says so (D12, log 3). -/
def Obligations.DisabledReadsAreGated : Prop :=
  ∀ s : State, s.ctrl.getLsbD 0 = false →
    (∀ i, exec (.rdA i) s = .next { s with returned := s.returned ++ [0#32] }) ∧
    (∀ i, exec (.rdB i) s = .next { s with returned := s.returned ++ [0#32] }) ∧
    (∀ i, exec (.rdC i) s = .next { s with returned := s.returned ++ [0#32] }) ∧
    exec .rdCtrl s = .next { s with returned := s.returned ++ [0#32] } ∧
    exec .rdSize s = .next { s with returned := s.returned ++ [0#32] } ∧
    exec .rdId s = .next { s with returned := s.returned ++ [0#32] } ∧
    exec .rdStatus s = .next { s with
      returned := s.returned ++ [0#32], irq := s.irq && !s.config.statusReadAcksWhenDisabled } ∧
    (∀ off, exec (.rdInv off) s =
      .next { s with returned := s.returned ++ [s.config.disabledInvalidRead] })

/-- With the decided parameters a disabled device answers every read, at any offset, with `0` and no change
of any register or of the line (D11, D12, log 2 and 3). -/
def Obligations.DecidedDisabledReadReturnsZero : Prop :=
  ∀ (s : State) (off size : Nat) (rest : List Transaction),
    s.config = Config.decided → s.ctrl.getLsbD 0 = false →
    step { s with pending := .rd off size :: rest } =
      .next { s with pending := rest, returned := s.returned ++ [0#32] }

/-- 40_register_reads.md, section 3: no read changes `A`, `B`, `C`, `CTRL`, `SIZE`, `STATUS`; none asserts
the line; only a Status read deasserts it; each returns one word (the spec derives this). -/
def Obligations.ReadsChangeAtMostTheLine : Prop :=
  ∀ (s : State) (off size : Nat) (rest : List Transaction), s.pending = .rd off size :: rest →
    ∃ (w : Word) (level : Bool),
      step s = .next { s with pending := rest, returned := s.returned ++ [w], irq := level } ∧
      (level = true → s.irq = true) ∧ (off ≠ 0x420 → level = s.irq)

/-! ## Writes other than Control writes -/

/-- 41_register_writes.md R85, R86: a write of a MatrixA or MatrixB cell stores the word unchanged, in every
state, enabled or not, whatever `SIZE` is, and changes nothing else. -/
def Obligations.CellWritesStoreUnconditionally : Prop :=
  ∀ (s : State) (size : Nat) (v : Word),
    (∀ i : Fin 100, dispatch (.wr (4 * i.val) size v) = .wrA i v ∧
      exec (.wrA i v) s = .next { s with A := s.A.set i.val v }) ∧
    (∀ i : Fin 10, dispatch (.wr (0x200 + 4 * i.val) size v) = .wrB i v ∧
      exec (.wrB i v) s = .next { s with B := s.B.set i.val v })

/-- 41_register_writes.md R87, R90, R91: writes of MatrixC, of Id and of an invalid offset are accepted and
change nothing. -/
def Obligations.WritesWithNoTargetAreDropped : Prop :=
  ∀ (s : State) (size : Nat) (v : Word),
    (∀ i : Fin 10, dispatch (.wr (0x300 + 4 * i.val) size v) = .wrC i v ∧
      exec (.wrC i v) s = .next s) ∧
    (dispatch (.wr 0x430 size v) = .wrId v ∧ exec (.wrId v) s = .next s) ∧
    (∀ off, (isHole off = true → dispatch (.wr off size v) = .wrInv off v) ∧
      exec (.wrInv off v) s = .next s)

/-- A write of Status changes nothing, the line included: the spec's decision D17 (log 21). -/
def Obligations.StatusWritesAreDropped : Prop :=
  ∀ (s : State) (v : Word), exec (.wrStatus v) s = .next s

/-- A write of Size stores `min(u(v), 10)` and changes nothing else (41_register_writes.md, WR.SIZE); that
the comparison is unsigned is the spec's decision D13 (log 20). -/
def Obligations.SizeWritesClampAtTen : Prop :=
  ∀ (s : State) (v : Word), ∃ n : Fin 11,
    n.val = (if v.toNat > 10 then 10 else v.toNat) ∧ exec (.wrSize v) s = .next { s with size := n }

/-- The source's property E2: on an enabled device a Size write read back gives the value, or 10 above 10
(the unsigned comparison is decision D13, log 20). -/
def Obligations.SizeReadsBackClamped : Prop :=
  ∀ (s : State) (v : Word) (z z' : Nat), s.ctrl.getLsbD 0 = true →
    s.pending = [.wr 0x410 z v, .rd 0x410 z'] →
    ∃ t, runProgram s = .next t ∧
      (v.toNat ≤ 10 → t.returned = s.returned ++ [v]) ∧
      (v.toNat > 10 → t.returned = s.returned ++ [10#32])

/-- No buffer or register aliases another (10_state.md, section 1): a write at any offset but Control's
changes the word at no other target, nor the line, and after a write of a MatrixA or MatrixB cell the cell
holds the written word. -/
def Obligations.StoresChangeOnlyTheirTarget : Prop :=
  ∀ (s : State) (off size : Nat) (v : Word) (rest : List Transaction), off ≠ 0x400 →
    s.pending = .wr off size v :: rest →
    ∃ t, step s = .next t ∧
      (∀ g : Target, g ≠ decodeOffset off → t.wordAt g = s.wordAt g) ∧
      (∀ i, decodeOffset off = .matrixA i → t.wordAt (.matrixA i) = v) ∧
      (∀ i, decodeOffset off = .matrixB i → t.wordAt (.matrixB i) = v) ∧
      t.irq = s.irq ∧ t.config = s.config ∧ t.pending = rest ∧ t.returned = s.returned

/-- No write is gated by ENABLE (41_register_writes.md, last rule): on two states that differ at most in
`CTRL`, a write of any class ends in states that differ at most in `CTRL`, and a Control write stores the
same word. The rule says this of a Control write as far as storing `CTRL` goes; that its commands and the
line do not depend on the stored bits either rests on the spec's decisions D7 (log 17: a command acts at
every write that carries its bit, whatever was stored) and D8 (log 18: the ENABLE and IRQ_ENABLE that count
are those written). (What START_OP does with ENABLE clear in the WRITTEN value is D9, log 1.) -/
def Obligations.WritesDoNotDependOnStoredControl : Prop :=
  ∀ (s s' : State) (off size : Nat) (v : Word) (rest : List Transaction), SameButCtrl s s' →
    s.pending = .wr off size v :: rest →
    ∃ t t', step s = .next t ∧ step s' = .next t' ∧ SameButCtrl t t' ∧
      (off = 0x400 → t.ctrl = t'.ctrl) ∧ (off ≠ 0x400 → t.ctrl = s.ctrl ∧ t'.ctrl = s'.ctrl)

/-! ## Control writes -/

/-- The Control write of 42_control_commands.md, section 2: the value is stored (under
`CTRL_STORE_MASK`, D6, log 4), then START_OP acts if its bit is set (by D9, log 1), else RESET_STAT if its
bit is set; the bits are those of the written value (D7, D8, D10, log 17 to 19). -/
def Obligations.ControlWriteStoresThenStartsElseResets : Prop :=
  ∀ (s : State) (size : Nat) (v : Word) (rest : List Transaction),
    step { s with pending := .wr 0x400 size v :: rest } = .next (
      let stored := { s with pending := rest, ctrl := v &&& s.config.ctrlStoreMask }
      if v.getLsbD 2 = true then
        if v.getLsbD 0 = true ∨ s.config.startRequiresEnable = false then
          { stored with
            C := s.multiply.C, status := 0b11#2,
            irq := if v.getLsbD 1 = true then true else s.irq }
        else stored
      else if v.getLsbD 3 = true then { stored with status := 0b00#2, irq := false }
      else stored)

/-- START_OP with ENABLE in the written value (42_control_commands.md R103, 43_multiply_engine.md R116):
`C[r]` for `r < SIZE` is the wrapped exact dot product of row `r` with the vector, both status bits are set,
the line is asserted if IRQ_ENABLE is in the value and else kept, and nothing else changes but `CTRL`.
Row-major packing with stride `SIZE` is the spec's decision D14 (log 15), the kept upper cells of `C` are
D21 (log 16), the stored value is D6 (log 4), and that the bits of the written value count is D7 and D8 (log
17, 18). Every index of the sum lies inside its buffer, so the default
of the lookups is never taken. -/
def Obligations.StartMultipliesAndSetsStatus : Prop :=
  ∀ (s : State) (v : Word), v.getLsbD 2 = true → v.getLsbD 0 = true →
    ∃ C' : Vector Word 10,
      exec (.wrCtrlStart v) s = .next { s with
        ctrl := v &&& s.config.ctrlStoreMask, C := C', status := 0b11#2,
        irq := s.irq || v.getLsbD 1 } ∧
      (∀ (r : Nat) (hr : r < 10), r < s.size.val →
        C'[r] = BitVec.ofInt 32 (∑ c ∈ Finset.range s.size.val,
          (s.A[r * s.size.val + c]?.getD 0).toInt * (s.B[c]?.getD 0).toInt)) ∧
      (∀ (r : Nat) (hr : r < 10), s.size.val ≤ r → C'[r] = s.C[r])

/-- START_OP with ENABLE clear in the written value (42_control_commands.md, section 6): where
`START_REQUIRES_ENABLE` holds only `CTRL` is stored, RESET_STAT is not executed either (D9, D10, log 1 and
19); where it does not, START runs. -/
def Obligations.StartWithEnableClearFollowsTheParameter : Prop :=
  ∀ (s : State) (v : Word), v.getLsbD 2 = true → v.getLsbD 0 = false →
    (s.config.startRequiresEnable = true →
      exec (.wrCtrlStart v) s = .next { s with ctrl := v &&& s.config.ctrlStoreMask }) ∧
    (s.config.startRequiresEnable = false →
      exec (.wrCtrlStart v) s = .next { s with
        ctrl := v &&& s.config.ctrlStoreMask, C := s.multiply.C, status := 0b11#2,
        irq := s.irq || v.getLsbD 1 })

/-- 42_control_commands.md R105: RESET_STAT without START_OP clears both status bits and deasserts the line
from any state, enabled or not, keeps `A`, `B`, `C` and `SIZE`, and leaves the device Idle or Disabled by
the ENABLE bit of the value (where `CTRL_STORE_MASK`, D6, log 4, keeps that bit). -/
def Obligations.ResetStatClearsStatusAndLine : Prop :=
  ∀ (s : State) (v : Word), v.getLsbD 3 = true → v.getLsbD 2 = false →
    ∃ t, exec (.wrCtrlReset v) s = .next t ∧
      t = { s with ctrl := v &&& s.config.ctrlStoreMask, status := 0b00#2, irq := false } ∧
      (s.config.ctrlStoreMask.getLsbD 0 = true →
        t.mode = if v.getLsbD 0 = true then .idle else .disabled)

/-- 42_control_commands.md R107: a Control write with neither command bit stores the value (whole, with the
decided `CTRL_STORE_MASK`; D6, log 4) and changes nothing else. -/
def Obligations.ConfigurationWriteChangesOnlyControl : Prop :=
  ∀ (s : State) (v : Word), v.getLsbD 3 = false → v.getLsbD 2 = false →
    exec (.wrCtrlCfg v) s = .next { s with ctrl := v &&& s.config.ctrlStoreMask } ∧
    (s.config.ctrlStoreMask = 0xFFFFFFFF#32 → exec (.wrCtrlCfg v) s = .next { s with ctrl := v })

/-- The transition table of 42_control_commands.md, section 6 (derived there, with D9, log 1, in its third
column): the state of the ControlStatusMachine after a Control write, by the state before and the class of
the value, for a mask that keeps ENABLE and a `STATUS` a host can see. -/
def Obligations.ControlWritesFollowTheTransitionTable : Prop :=
  ∀ (s : State) (size : Nat) (v : Word) (rest : List Transaction), s.Inv →
    s.config.ctrlStoreMask.getLsbD 0 = true → s.pending = .wr 0x400 size v :: rest →
    ∃ t, step s = .next t ∧
      (v.getLsbD 2 = true → v.getLsbD 0 = true → t.mode = .ended ∧ t.status = 0b11#2) ∧
      (v.getLsbD 2 = true → v.getLsbD 0 = false → s.config.startRequiresEnable = true →
        t.mode = .disabled ∧ t.status = s.status ∧ t.irq = s.irq ∧ t.C = s.C) ∧
      (v.getLsbD 2 = false → v.getLsbD 3 = true →
        t.mode = (if v.getLsbD 0 = true then .idle else .disabled) ∧ t.status = 0b00#2 ∧
          t.irq = false) ∧
      (v.getLsbD 2 = false → v.getLsbD 3 = false →
        t.status = s.status ∧ t.irq = s.irq ∧ t.C = s.C ∧
        t.mode = (if v.getLsbD 0 = false then .disabled
          else if s.status = 0b00#2 then .idle else .ended))

/-- The latched-command hazard (70_reset_and_hazards.md, section 3; triggers by D7, log 17): a
read-modify-write of Control that ORs in IRQ_ENABLE after a `0x5` reads `0x5`, runs the multiply again and
asserts the line. -/
def Obligations.ReadModifyWriteOfControlRetriggers : Prop :=
  ∀ (s : State) (i : Fin 100) (x : Word), s.config.ctrlStoreMask = 0xFFFFFFFF#32 →
    s.pending = [.wr 0x400 4 0x5#32, .wr (4 * i.val) 4 x, .rd 0x400 4,
      .wr 0x400 4 (0x5#32 ||| 0x2#32)] →
    ∃ t, runProgram s = .next t ∧ t.returned = s.returned ++ [0x5#32] ∧ t.ctrl = 0x7#32 ∧
      t.status = 0b11#2 ∧ t.irq = true ∧ t.A = s.A.set i.val x ∧
      t.C = ({ s with A := s.A.set i.val x } : State).multiply.C

/-- Read-modify-write of Control through the disable gate loses the stored bits (70_reset_and_hazards.md,
section 3, derived there): a disabled device reads as `0`, and writing that back with ENABLE leaves only
ENABLE stored. -/
def Obligations.EnablingThroughTheGateLosesStoredBits : Prop :=
  ∀ s u : State, s.config.ctrlStoreMask = 0xFFFFFFFF#32 → s.ctrl.getLsbD 0 = false →
    s.pending = [.rd 0x400 4] → runProgram s = .next u →
    ∃ w, u.returned = s.returned ++ [w] ∧
      step { u with pending := [.wr 0x400 4 (w ||| 0x1#32)] } = .next { u with ctrl := 0x1#32 }

/-! ## The multiply -/

/-- 43_multiply_engine.md R119: with `SIZE = 0` START_OP writes no cell of `C`, sets both status bits and
asserts the line if IRQ_ENABLE is in the value. That every cell of `C` keeps its value is the spec's decision
D21 (log 16), that bit 1 of the written value decides the line is D8 (log 18), and the stored value is D6
(log 4). -/
def Obligations.SizeZeroMultiplyWritesNoCell : Prop :=
  ∀ (s : State) (v : Word), s.size = 0 → v.getLsbD 2 = true → v.getLsbD 0 = true →
    exec (.wrCtrlStart v) s = .next { s with
      ctrl := v &&& s.config.ctrlStoreMask, status := 0b11#2,
      irq := if v.getLsbD 1 = true then true else s.irq }

/-- The three forms of 43_multiply_engine.md, section 3, agree (derived there): the wrapped exact sum of
signed products, the wrapped sum of unsigned products, and 32-bit machine arithmetic that wraps at every
step, with no saturation. -/
def Obligations.WrappingOnceEqualsWrappingAtEveryStep : Prop :=
  ∀ (A : Vector Word 100) (B : Vector Word 10) (n : Fin 11) (r : Fin n.val),
    rowProduct A B n r = wrap32 (∑ c : Fin n.val,
      (matrixElement A n r c).toInt * (vectorElement B n c).toInt) ∧
    rowProduct A B n r = BitVec.ofNat 32 (∑ c : Fin n.val,
      (matrixElement A n r c).toNat * (vectorElement B n c).toNat) ∧
    rowProduct A B n r = (List.ofFn fun c : Fin n.val =>
      (matrixElement A n r c, vectorElement B n c)).foldl (fun acc p => acc + p.1 * p.2) 0#32

/-- Size 2, the two rows are `(A[0], A[1])` and `(A[2], A[3])` whatever size `A` was loaded for
(70_reset_and_hazards.md, section 3; stride by D14, log 15), and `C[2]` up keep stale values (D21, log
16). -/
def Obligations.SizeTwoMultiplyReadsPackedRows : Prop :=
  ∀ (s : State) (v : Word), s.size = 2 → v.getLsbD 2 = true → v.getLsbD 0 = true →
    ∃ t, exec (.wrCtrlStart v) s = .next t ∧
      t.C[0] = s.A[0] * s.B[0] + s.A[1] * s.B[1] ∧
      t.C[1] = s.A[2] * s.B[0] + s.A[3] * s.B[1] ∧
      (∀ (r : Nat) (hr : r < 10), 2 ≤ r → t.C[r] = s.C[r])

/-- The multiply reads `A[0 .. n*n-1]` and `B[0 .. n-1]` and nothing else (43_multiply_engine.md, section
1; packing by D14, log 15): two states that agree on those cells and on `SIZE` get the same results. -/
def Obligations.MultiplyReadsOnlyPopulatedCells : Prop :=
  ∀ (s s' : State) (v : Word), s.size = s'.size → v.getLsbD 2 = true → v.getLsbD 0 = true →
    (∀ (k : Nat) (hk : k < 100), k < s.size.val * s.size.val → s.A[k] = s'.A[k]) →
    (∀ (c : Nat) (hc : c < 10), c < s.size.val → s.B[c] = s'.B[c]) →
    ∃ t t', exec (.wrCtrlStart v) s = .next t ∧ exec (.wrCtrlStart v) s' = .next t' ∧
      ∀ (r : Nat) (hr : r < 10), r < s.size.val → t.C[r] = t'.C[r]

/-- The host's program of 43_multiply_engine.md R122: write Size, the `n * n` cells of `A` and the `n` cells
of `B`, write Control with START_OP and ENABLE, read the `n` cells of `C`. -/
def multiplyProgram (n : Nat) (a b : Nat → Word) (v : Word) : List Transaction :=
  [.wr 0x410 4 (BitVec.ofNat 32 n)] ++
    (List.range (n * n)).map (fun k => .wr (4 * k) 4 (a k)) ++
    (List.range n).map (fun c => .wr (0x200 + 4 * c) 4 (b c)) ++
    [.wr 0x400 4 v] ++
    (List.range n).map (fun r => .rd (0x300 + 4 * r) 4)

/-- 43_multiply_engine.md R122, from every state: the reads of `C` return the wrapped exact dot product of
each row with the vector, and the word read is the exact product without the wrap exactly when the product
lies in `[-2^31, 2^31)`. Row `r` of the loaded cells is `A[r*n ..]` by the spec's decision D14 (log 15). The
premise on the mask says that the stored Control keeps ENABLE (D6, log 4), so that the reads are live. -/
def Obligations.LoadStartReadGivesTheProduct : Prop :=
  ∀ (s : State) (n : Nat) (a b : Nat → Word) (v : Word), n ≤ 10 →
    v.getLsbD 2 = true → v.getLsbD 0 = true → s.config.ctrlStoreMask.getLsbD 0 = true →
    s.pending = multiplyProgram n a b v →
    ∃ t, runProgram s = .next t ∧
      t.returned = s.returned ++ (List.range n).map (fun r =>
        BitVec.ofInt 32 (∑ c ∈ Finset.range n, (a (r * n + c)).toInt * (b c).toInt)) ∧
      ∀ (r : Nat) (hr : r < 10), r < n →
        (t.C[r].toInt = ∑ c ∈ Finset.range n, (a (r * n + c)).toInt * (b c).toInt ↔
          -2 ^ 31 ≤ ∑ c ∈ Finset.range n, (a (r * n + c)).toInt * (b c).toInt ∧
            ∑ c ∈ Finset.range n, (a (r * n + c)).toInt * (b c).toInt < 2 ^ 31)

/-! ## The interrupt line -/

/-- 60_exceptions.md R143, R144 and R146 and the Status read of R76: the line has exactly its writers. It
goes up only at the end of START with IRQ_ENABLE in the written value (which START_OP runs is D9, log 1; that
the written bits count is D7 and D8, log 17 and 18), and goes
down only by a Status read (on a disabled device only where `STATUS_READ_ACKS_WHEN_DISABLED`, D12, log 3) or
by RESET_STAT. -/
def Obligations.TheLineHasExactlyItsWriters : Prop :=
  ∀ (i : Instr) (s t : State), exec i s = .next t →
    (s.irq = false → (t.irq = true ↔ ∃ v, i = .wrCtrlStart v ∧ v.getLsbD 1 = true ∧
      (v.getLsbD 0 = true ∨ s.config.startRequiresEnable = false))) ∧
    (s.irq = true → (t.irq = false ↔ (∃ v, i = .wrCtrlReset v) ∨ (i = .rdStatus ∧
      (s.ctrl.getLsbD 0 = true ∨ s.config.statusReadAcksWhenDisabled = true))))

/-- The source's property E7: on an enabled device two Status reads in a row return the same bits, and the
line is deasserted after the first and stays so. The zero bits above `STATUS` are D20 (log 14). -/
def Obligations.SecondStatusReadReportsTheSameBits : Prop :=
  ∀ (s : State) (z z' : Nat), s.ctrl.getLsbD 0 = true → s.pending = [.rd 0x420 z, .rd 0x420 z'] →
    ∃ u t, step s = .next u ∧ step u = .next t ∧ u.irq = false ∧ t.irq = false ∧
      t.status = s.status ∧
      t.returned = s.returned ++ [s.status.setWidth 32, s.status.setWidth 32]

/-- The line is state of its own (60_exceptions.md, section 2): an asserted line is kept when IRQ_ENABLE or
ENABLE are cleared, when they are set, and when START_OP is given without IRQ_ENABLE; a deasserted line is
not asserted by setting IRQ_ENABLE (derived in the spec from "exactly two writers"); the bits that count are
those of the written value (D8, log 18). Every write of Status, of any value, keeps the line: that such a
write acknowledges nothing is the spec's decision D17 (log 21). -/
def Obligations.ChangingEnablesKeepsTheLine : Prop :=
  ∀ (s : State) (size : Nat) (rest : List Transaction),
    (∀ v : Word, v.getLsbD 1 = false ∨ v.getLsbD 2 = false → v.getLsbD 3 = false →
      ∃ t, step { s with pending := .wr 0x400 size v :: rest } = .next t ∧ t.irq = s.irq) ∧
    (∀ v : Word, ∃ t, step { s with pending := .wr 0x420 size v :: rest } = .next t ∧ t.irq = s.irq)

/-! ## The whole machine -/

/-- Which transactions can change which register (10_state.md R10 to R18): `A` only WR.A, `B` only WR.B, `C`
only START_OP, `CTRL` only Control writes, `SIZE` only WR.SIZE, `STATUS` only START_OP and RESET_STAT; the
parameters and the host's list never. -/
def Obligations.EachRegisterHasItsWriters : Prop :=
  ∀ (i : Instr) (s : State), ∃ t, exec i s = .next t ∧
    ((∀ k v, i ≠ .wrA k v) → t.A = s.A) ∧
    ((∀ k v, i ≠ .wrB k v) → t.B = s.B) ∧
    ((∀ v, i ≠ .wrCtrlStart v) → t.C = s.C) ∧
    ((∀ v, i ≠ .wrCtrlStart v ∧ i ≠ .wrCtrlReset v ∧ i ≠ .wrCtrlCfg v) → t.ctrl = s.ctrl) ∧
    ((∀ v, i ≠ .wrSize v) → t.size = s.size) ∧
    ((∀ v, i ≠ .wrCtrlStart v ∧ i ≠ .wrCtrlReset v) → t.status = s.status) ∧
    t.config = s.config ∧ t.pending = s.pending

/-- 60_exceptions.md R140: no transaction is refused or faulted; every `RD` returns a word and every `WR`
completes, for every offset, size and value, and the device stays usable: no run ever stops. The last clause
also counts steps taken after the last transaction of the list; that such a step answers the same state is
the model's choice (log 9). -/
def Obligations.NoTransactionIsEverRefused : Prop :=
  (∀ (s : State) (off size : Nat) (rest : List Transaction), s.pending = .rd off size :: rest →
    ∃ t w, step s = .next t ∧ t.pending = rest ∧ t.returned = s.returned ++ [w]) ∧
  (∀ (s : State) (off size : Nat) (v : Word) (rest : List Transaction),
    s.pending = .wr off size v :: rest →
    ∃ t, step s = .next t ∧ t.pending = rest ∧ t.returned = s.returned) ∧
  (∀ s : State, neverStops s)

/-- The invariant of the registers (`State.Inv`: `STATUS` is `0b00` or `0b11`, an asserted line has a
completed multiply behind it, `CTRL` lies under the mask) is kept by every step. -/
def Obligations.EveryStepKeepsTheInvariant : Prop :=
  ∀ s t : State, s.Inv → step s = .next t → t.Inv

/-- The invariant holds when the device is attached, for every parameter and every contents of the
buffers. -/
def Obligations.TheInvariantHoldsAtAttach : Prop :=
  ∀ (cfg : Config) (init : InitCells), (State.attach cfg init).Inv

/-- 42_control_commands.md R100: the state of the ControlStatusMachine is this function of the stored bits,
and `Running` is never seen at a transaction boundary: from every state of the invariant every number of
transactions ends in `Disabled`, `Idle` or `Ended`. -/
def Obligations.RunningIsNeverSeen : Prop :=
  (∀ s : State,
    (s.mode = .disabled ↔ s.ctrl.getLsbD 0 = false) ∧
    (s.mode = .idle ↔ s.ctrl.getLsbD 0 = true ∧ s.status = 0b00#2) ∧
    (s.mode = .running ↔
      s.ctrl.getLsbD 0 = true ∧ s.status.getLsbD 0 = true ∧ s.status.getLsbD 1 = false) ∧
    (s.mode = .ended ↔ s.ctrl.getLsbD 0 = true ∧ s.status.getLsbD 1 = true)) ∧
  (∀ (k : Nat) (s t : State), s.Inv → run k s = .next t →
    t.mode = .disabled ∨ t.mode = .idle ∨ t.mode = .ended)

/-- After attach `STATUS` is `0b00` (70_reset_and_hazards.md, section 1), `CTRL`, `SIZE` and `IRQ` are `0` (D16,
log 6), the cells are whatever the device was attached with (D16, log 7), and `State.reset` is the attach
with the decided parameters and zero cells (the model's choice, log 7). -/
def Obligations.AttachLeavesTheDecidedValues : Prop :=
  (∀ (cfg : Config) (init : InitCells),
    (State.attach cfg init).status = 0b00#2 ∧ (State.attach cfg init).ctrl = 0#32 ∧
    (State.attach cfg init).size = 0 ∧ (State.attach cfg init).irq = false ∧
    (State.attach cfg init).A = init.initA ∧ (State.attach cfg init).B = init.initB ∧
    (State.attach cfg init).C = init.initC ∧ (State.attach cfg init).mode = .disabled) ∧
  State.reset = State.attach Config.decided InitCells.zero

/-- A cell keeps its value until a transaction writes it (10_state.md R10 to R12, 70_reset_and_hazards.md,
section 1): over any number of steps with no write at its offset for a cell of `A` or `B`, and with no
START_OP for a cell of `C`. -/
def Obligations.CellsHoldUntilWritten : Prop :=
  ∀ (k : Nat) (s t : State), run k s = .next t →
    (∀ i : Fin 100, (∀ z v, Transaction.wr (4 * i.val) z v ∉ s.pending) →
      t.A[i.val] = s.A[i.val]) ∧
    (∀ i : Fin 10, (∀ z v, Transaction.wr (0x200 + 4 * i.val) z v ∉ s.pending) →
      t.B[i.val] = s.B[i.val]) ∧
    ((∀ z v, v.getLsbD 2 = true → Transaction.wr 0x400 z v ∉ s.pending) → t.C = s.C)

/-- The source's property E3: a cell written while the device is disabled reads back as written once the
device is enabled. -/
def Obligations.WritesWhileDisabledPersist : Prop :=
  ∀ (s : State) (i : Fin 100) (j : Fin 10) (x y v : Word) (z : Nat), s.ctrl.getLsbD 0 = false →
    v.getLsbD 0 = true → s.config.ctrlStoreMask.getLsbD 0 = true →
    s.pending = [.wr (4 * i.val) z x, .wr (0x200 + 4 * j.val) z y, .rd (4 * i.val) z, .wr 0x400 z v,
      .rd (4 * i.val) z, .rd (0x200 + 4 * j.val) z] →
    ∃ t, runProgram s = .next t ∧ t.returned = s.returned ++ [0#32, x, y]

/-- 20_memory.md R39: one total order. The state after the first transactions of a list is fixed by them and
the state before, whatever follows; a run of a longer list is the run of its first part, then the run of the
rest from the state that left; each single transaction acts by its own class. -/
def Obligations.TransactionsFormOneTotalOrder : Prop :=
  (∀ (s : State) (first : List Transaction), ∃ t : State, ∀ later : List Transaction,
    run first.length { s with pending := first ++ later } =
      .next { t with pending := later }) ∧
  (∀ (j k : Nat) (s t : State), run j s = .next t →
    run (j + k) s = run k t) ∧
  (∀ (s : State) (x : Transaction) (later : List Transaction),
    run 1 { s with pending := x :: later } =
      exec (dispatch x) { s with pending := later })

/-- Is the transaction a read? -/
def isReadTransaction : Transaction → Bool
  | .rd _ _ => true
  | .wr _ _ _ => false

/-- A run is over when its last transaction has completed, with nothing in flight, and what it returned is
one word for each read of the list (10_state.md, section 6). -/
def Obligations.ARunReturnsOneWordPerRead : Prop :=
  ∀ s : State, ∃ (t : State) (ws : List Word), runProgram s = .next t ∧ t.pending = [] ∧
    t.returned = s.returned ++ ws ∧ ws.length = (s.pending.filter isReadTransaction).length

/-- A disabled device reveals nothing of its registers (40_register_reads.md, section 1): two disabled
devices with the same parameters answer the same list of transactions with the same words, as long as no
write of the list is a Control write. -/
def Obligations.ADisabledDeviceRevealsNothing : Prop :=
  ∀ s s' : State, s.ctrl.getLsbD 0 = false → s'.ctrl.getLsbD 0 = false → s.config = s'.config →
    s.pending = s'.pending → s.returned = s'.returned →
    (∀ z v, Transaction.wr 0x400 z v ∉ s.pending) →
    ∃ t t', runProgram s = .next t ∧ runProgram s' = .next t' ∧ t.returned = t'.returned
end

