-- ==== Sys2Proof/Laws/Decode.lean ====
section
/-! SUPPORT. What address decode and the transaction word do, said once. -/

namespace Sys2Proof

@[simp] theorem decodeOffset_cellA (i : Fin 100) : decodeOffset (cellOffsetA i) = .matrixA i := by
  have hi := i.isLt
  have h0 : 4 * i.val % 4 = 0 := by omega
  have h1 : 4 * i.val < 0x190 := by omega
  have h2 : 4 * i.val / 4 = i.val := by omega
  simp [decodeOffset, cellOffsetA, h1, h2]

@[simp] theorem decodeOffset_cellB (i : Fin 10) : decodeOffset (cellOffsetB i) = .matrixB i := by
  have hi := i.isLt
  unfold decodeOffset cellOffsetB
  rw [if_neg (by omega), dif_neg (by omega), dif_pos (by omega)]
  congr 1
  apply Fin.ext
  simp only
  omega

@[simp] theorem decodeOffset_cellC (i : Fin 10) : decodeOffset (cellOffsetC i) = .matrixC i := by
  have hi := i.isLt
  unfold decodeOffset cellOffsetC
  rw [if_neg (by omega), dif_neg (by omega), dif_neg (by omega), dif_pos (by omega)]
  congr 1
  apply Fin.ext
  simp only
  omega

@[simp] theorem decodeOffset_control : decodeOffset 0x400 = .control := by decide
@[simp] theorem decodeOffset_size : decodeOffset 0x410 = .size := by decide
@[simp] theorem decodeOffset_status : decodeOffset 0x420 = .status := by decide
@[simp] theorem decodeOffset_id : decodeOffset 0x430 = .id := by decide

/-! ### The fields of the transaction word (30_encoding.md R51) -/

theorem packAddress_rw (off size : Nat) : (packAddress off size).getLsbD 63 = false := by
  simp [packAddress]

theorem packAddress_off (off size : Nat) :
    (packAddress off size).extractLsb' 32 16 = BitVec.ofNat 16 off := by
  apply BitVec.eq_of_getLsbD_eq
  intro i hi
  simp [packAddress, hi, show 32 + i < 48 by omega, show 32 + i < 64 by omega]

theorem packAddress_size (off size : Nat) :
    (packAddress off size).extractLsb' 48 8 = BitVec.ofNat 8 size := by
  apply BitVec.eq_of_getLsbD_eq
  intro i hi
  simp [packAddress, hi, show 48 + i < 64 by omega, show ¬ 48 + i < 32 by omega,
    show 16 ≤ 48 + i - 32 by omega]

theorem packAddress_data (off size : Nat) : (packAddress off size).extractLsb' 0 32 = 0#32 := by
  apply BitVec.eq_of_getLsbD_eq
  intro i hi
  simp [packAddress, hi, show i < 48 by omega]

/-- The transaction word gives its fields back, for a read. -/
theorem unpack_pack_rd {off size : Nat} (ho : off < 0x10000) (hs : size < 0x100) :
    Transaction.unpack (Transaction.pack (.rd off size)) = .rd off size := by
  have e1 : (Transaction.pack (.rd off size)).getLsbD 63 = false := packAddress_rw off size
  simp only [Transaction.unpack, e1]
  simp [Transaction.pack, packAddress_off, packAddress_size, Nat.mod_eq_of_lt ho,
    Nat.mod_eq_of_lt hs]

/-- The fields of a write's word above its data are those of `packAddress`, with bit 63 set. -/
theorem pack_wr_high (off size k len : Nat) (v : Word) (hk : 32 ≤ k) (hlen : k + len ≤ 63) :
    (Transaction.pack (.wr off size v)).extractLsb' k len = (packAddress off size).extractLsb' k len := by
  apply BitVec.eq_of_getLsbD_eq
  intro i hi
  have hbit : (0x8000000000000000#64).getLsbD (k + i) = false := by
    have h : (0x8000000000000000#64) = BitVec.twoPow 64 63 := by decide
    rw [h, BitVec.getLsbD_twoPow]
    simp; omega
  have hv : v.getLsbD (k + i) = false := BitVec.getLsbD_of_ge v (k + i) (by omega)
  simp only [Transaction.pack, BitVec.getLsbD_extractLsb', BitVec.getLsbD_or, hbit,
    BitVec.getLsbD_setWidth, hv, Bool.and_false, Bool.false_or, Bool.or_false]

/-- The transaction word gives its fields back, for a write. -/
theorem unpack_pack_wr {off size : Nat} (v : Word) (ho : off < 0x10000) (hs : size < 0x100) :
    Transaction.unpack (Transaction.pack (.wr off size v)) = .wr off size v := by
  have e1 : (Transaction.pack (.wr off size v)).getLsbD 63 = true := by
    simp [Transaction.pack]
  have e4 : (Transaction.pack (.wr off size v)).extractLsb' 0 32 = v := by
    apply BitVec.eq_of_getLsbD_eq
    intro i hi
    have hbit : (0x8000000000000000#64).getLsbD i = false := by
      have h : (0x8000000000000000#64) = BitVec.twoPow 64 63 := by decide
      rw [h, BitVec.getLsbD_twoPow]
      simp; omega
    have hlow : (packAddress off size).getLsbD i = false := by
      simp [packAddress, hi, show i < 48 by omega]
    simp only [Transaction.pack, BitVec.getLsbD_extractLsb', BitVec.getLsbD_or, Nat.zero_add, hbit,
      hlow, BitVec.getLsbD_setWidth, Bool.false_or]
    simp [hi, show i < 64 by omega]
  simp [Transaction.unpack, e1, e4, pack_wr_high, packAddress_off, packAddress_size,
    Nat.mod_eq_of_lt ho, Nat.mod_eq_of_lt hs]

end Sys2Proof
end

