-- ==== Sys2Proof/Laws/State.lean ====
section
/-! SUPPORT. What each operation does to each field of State: one lemma per operation and field. -/

namespace Sys2Proof.Machine

/-! ### `setStarted` -/

@[simp] theorem State.setStarted_A (s : State) : (s.setStarted).A = s.A := rfl
@[simp] theorem State.setStarted_B (s : State) : (s.setStarted).B = s.B := rfl
@[simp] theorem State.setStarted_C (s : State) : (s.setStarted).C = s.C := rfl
@[simp] theorem State.setStarted_ctrl (s : State) : (s.setStarted).ctrl = s.ctrl := rfl
@[simp] theorem State.setStarted_size (s : State) : (s.setStarted).size = s.size := rfl
@[simp] theorem State.setStarted_status (s : State) :
    (s.setStarted).status = s.status ||| 0b01#2 := rfl
@[simp] theorem State.setStarted_irq (s : State) : (s.setStarted).irq = s.irq := rfl
@[simp] theorem State.setStarted_config (s : State) : (s.setStarted).config = s.config := rfl
@[simp] theorem State.setStarted_pending (s : State) : (s.setStarted).pending = s.pending := rfl
@[simp] theorem State.setStarted_returned (s : State) : (s.setStarted).returned = s.returned := rfl

/-! ### `setEnded` -/

@[simp] theorem State.setEnded_A (s : State) : (s.setEnded).A = s.A := rfl
@[simp] theorem State.setEnded_B (s : State) : (s.setEnded).B = s.B := rfl
@[simp] theorem State.setEnded_C (s : State) : (s.setEnded).C = s.C := rfl
@[simp] theorem State.setEnded_ctrl (s : State) : (s.setEnded).ctrl = s.ctrl := rfl
@[simp] theorem State.setEnded_size (s : State) : (s.setEnded).size = s.size := rfl
@[simp] theorem State.setEnded_status (s : State) : (s.setEnded).status = s.status ||| 0b10#2 := rfl
@[simp] theorem State.setEnded_irq (s : State) : (s.setEnded).irq = s.irq := rfl
@[simp] theorem State.setEnded_config (s : State) : (s.setEnded).config = s.config := rfl
@[simp] theorem State.setEnded_pending (s : State) : (s.setEnded).pending = s.pending := rfl
@[simp] theorem State.setEnded_returned (s : State) : (s.setEnded).returned = s.returned := rfl

/-! ### `clearStatus` -/

@[simp] theorem State.clearStatus_A (s : State) : (s.clearStatus).A = s.A := rfl
@[simp] theorem State.clearStatus_B (s : State) : (s.clearStatus).B = s.B := rfl
@[simp] theorem State.clearStatus_C (s : State) : (s.clearStatus).C = s.C := rfl
@[simp] theorem State.clearStatus_ctrl (s : State) : (s.clearStatus).ctrl = s.ctrl := rfl
@[simp] theorem State.clearStatus_size (s : State) : (s.clearStatus).size = s.size := rfl
@[simp] theorem State.clearStatus_status (s : State) : (s.clearStatus).status = 0b00#2 := rfl
@[simp] theorem State.clearStatus_irq (s : State) : (s.clearStatus).irq = s.irq := rfl
@[simp] theorem State.clearStatus_config (s : State) : (s.clearStatus).config = s.config := rfl
@[simp] theorem State.clearStatus_pending (s : State) : (s.clearStatus).pending = s.pending := rfl
@[simp] theorem State.clearStatus_returned (s : State) :
    (s.clearStatus).returned = s.returned := rfl

/-! ### `assertIrq` -/

@[simp] theorem State.assertIrq_A (s : State) : (s.assertIrq).A = s.A := rfl
@[simp] theorem State.assertIrq_B (s : State) : (s.assertIrq).B = s.B := rfl
@[simp] theorem State.assertIrq_C (s : State) : (s.assertIrq).C = s.C := rfl
@[simp] theorem State.assertIrq_ctrl (s : State) : (s.assertIrq).ctrl = s.ctrl := rfl
@[simp] theorem State.assertIrq_size (s : State) : (s.assertIrq).size = s.size := rfl
@[simp] theorem State.assertIrq_status (s : State) : (s.assertIrq).status = s.status := rfl
@[simp] theorem State.assertIrq_irq (s : State) : (s.assertIrq).irq = true := rfl
@[simp] theorem State.assertIrq_config (s : State) : (s.assertIrq).config = s.config := rfl
@[simp] theorem State.assertIrq_pending (s : State) : (s.assertIrq).pending = s.pending := rfl
@[simp] theorem State.assertIrq_returned (s : State) : (s.assertIrq).returned = s.returned := rfl

/-! ### `deassertIrq` -/

@[simp] theorem State.deassertIrq_A (s : State) : (s.deassertIrq).A = s.A := rfl
@[simp] theorem State.deassertIrq_B (s : State) : (s.deassertIrq).B = s.B := rfl
@[simp] theorem State.deassertIrq_C (s : State) : (s.deassertIrq).C = s.C := rfl
@[simp] theorem State.deassertIrq_ctrl (s : State) : (s.deassertIrq).ctrl = s.ctrl := rfl
@[simp] theorem State.deassertIrq_size (s : State) : (s.deassertIrq).size = s.size := rfl
@[simp] theorem State.deassertIrq_status (s : State) : (s.deassertIrq).status = s.status := rfl
@[simp] theorem State.deassertIrq_irq (s : State) : (s.deassertIrq).irq = false := rfl
@[simp] theorem State.deassertIrq_config (s : State) : (s.deassertIrq).config = s.config := rfl
@[simp] theorem State.deassertIrq_pending (s : State) : (s.deassertIrq).pending = s.pending := rfl
@[simp] theorem State.deassertIrq_returned (s : State) :
    (s.deassertIrq).returned = s.returned := rfl

/-! ### `multiply` -/

@[simp] theorem State.multiply_A (s : State) : (s.multiply).A = s.A := rfl
@[simp] theorem State.multiply_B (s : State) : (s.multiply).B = s.B := rfl
@[simp] theorem State.multiply_ctrl (s : State) : (s.multiply).ctrl = s.ctrl := rfl
@[simp] theorem State.multiply_size (s : State) : (s.multiply).size = s.size := rfl
@[simp] theorem State.multiply_status (s : State) : (s.multiply).status = s.status := rfl
@[simp] theorem State.multiply_irq (s : State) : (s.multiply).irq = s.irq := rfl
@[simp] theorem State.multiply_config (s : State) : (s.multiply).config = s.config := rfl
@[simp] theorem State.multiply_pending (s : State) : (s.multiply).pending = s.pending := rfl
@[simp] theorem State.multiply_returned (s : State) : (s.multiply).returned = s.returned := rfl

/-! ### `answer` -/

@[simp] theorem State.answer_A (w : Word) (s : State) : (s.answer w).A = s.A := rfl
@[simp] theorem State.answer_B (w : Word) (s : State) : (s.answer w).B = s.B := rfl
@[simp] theorem State.answer_C (w : Word) (s : State) : (s.answer w).C = s.C := rfl
@[simp] theorem State.answer_ctrl (w : Word) (s : State) : (s.answer w).ctrl = s.ctrl := rfl
@[simp] theorem State.answer_size (w : Word) (s : State) : (s.answer w).size = s.size := rfl
@[simp] theorem State.answer_status (w : Word) (s : State) : (s.answer w).status = s.status := rfl
@[simp] theorem State.answer_irq (w : Word) (s : State) : (s.answer w).irq = s.irq := rfl
@[simp] theorem State.answer_config (w : Word) (s : State) : (s.answer w).config = s.config := rfl
@[simp] theorem State.answer_pending (w : Word) (s : State) :
    (s.answer w).pending = s.pending := rfl
@[simp] theorem State.answer_returned (w : Word) (s : State) :
    (s.answer w).returned = s.returned ++ [w] := rfl

/-! ### `gatedRead` -/

@[simp] theorem State.gatedRead_A (g l : Word) (s : State) : (s.gatedRead g l).A = s.A := rfl
@[simp] theorem State.gatedRead_B (g l : Word) (s : State) : (s.gatedRead g l).B = s.B := rfl
@[simp] theorem State.gatedRead_C (g l : Word) (s : State) : (s.gatedRead g l).C = s.C := rfl
@[simp] theorem State.gatedRead_ctrl (g l : Word) (s : State) :
    (s.gatedRead g l).ctrl = s.ctrl := rfl
@[simp] theorem State.gatedRead_size (g l : Word) (s : State) :
    (s.gatedRead g l).size = s.size := rfl
@[simp] theorem State.gatedRead_status (g l : Word) (s : State) :
    (s.gatedRead g l).status = s.status := rfl
@[simp] theorem State.gatedRead_irq (g l : Word) (s : State) : (s.gatedRead g l).irq = s.irq := rfl
@[simp] theorem State.gatedRead_config (g l : Word) (s : State) :
    (s.gatedRead g l).config = s.config := rfl
@[simp] theorem State.gatedRead_pending (g l : Word) (s : State) :
    (s.gatedRead g l).pending = s.pending := rfl
@[simp] theorem State.gatedRead_returned (g l : Word) (s : State) :
    (s.gatedRead g l).returned = s.returned ++ [if s.enabled then l else g] := rfl

/-! ### `storeA` -/

@[simp] theorem State.storeA_A (i : Fin 100) (v : Word) (s : State) :
    (s.storeA i v).A = s.A.set i.val v := rfl
@[simp] theorem State.storeA_B (i : Fin 100) (v : Word) (s : State) : (s.storeA i v).B = s.B := rfl
@[simp] theorem State.storeA_C (i : Fin 100) (v : Word) (s : State) : (s.storeA i v).C = s.C := rfl
@[simp] theorem State.storeA_ctrl (i : Fin 100) (v : Word) (s : State) :
    (s.storeA i v).ctrl = s.ctrl := rfl
@[simp] theorem State.storeA_size (i : Fin 100) (v : Word) (s : State) :
    (s.storeA i v).size = s.size := rfl
@[simp] theorem State.storeA_status (i : Fin 100) (v : Word) (s : State) :
    (s.storeA i v).status = s.status := rfl
@[simp] theorem State.storeA_irq (i : Fin 100) (v : Word) (s : State) :
    (s.storeA i v).irq = s.irq := rfl
@[simp] theorem State.storeA_config (i : Fin 100) (v : Word) (s : State) :
    (s.storeA i v).config = s.config := rfl
@[simp] theorem State.storeA_pending (i : Fin 100) (v : Word) (s : State) :
    (s.storeA i v).pending = s.pending := rfl
@[simp] theorem State.storeA_returned (i : Fin 100) (v : Word) (s : State) :
    (s.storeA i v).returned = s.returned := rfl

/-! ### `storeB` -/

@[simp] theorem State.storeB_A (i : Fin 10) (v : Word) (s : State) : (s.storeB i v).A = s.A := rfl
@[simp] theorem State.storeB_B (i : Fin 10) (v : Word) (s : State) :
    (s.storeB i v).B = s.B.set i.val v := rfl
@[simp] theorem State.storeB_C (i : Fin 10) (v : Word) (s : State) : (s.storeB i v).C = s.C := rfl
@[simp] theorem State.storeB_ctrl (i : Fin 10) (v : Word) (s : State) :
    (s.storeB i v).ctrl = s.ctrl := rfl
@[simp] theorem State.storeB_size (i : Fin 10) (v : Word) (s : State) :
    (s.storeB i v).size = s.size := rfl
@[simp] theorem State.storeB_status (i : Fin 10) (v : Word) (s : State) :
    (s.storeB i v).status = s.status := rfl
@[simp] theorem State.storeB_irq (i : Fin 10) (v : Word) (s : State) :
    (s.storeB i v).irq = s.irq := rfl
@[simp] theorem State.storeB_config (i : Fin 10) (v : Word) (s : State) :
    (s.storeB i v).config = s.config := rfl
@[simp] theorem State.storeB_pending (i : Fin 10) (v : Word) (s : State) :
    (s.storeB i v).pending = s.pending := rfl
@[simp] theorem State.storeB_returned (i : Fin 10) (v : Word) (s : State) :
    (s.storeB i v).returned = s.returned := rfl

/-! ### `storeSize` -/

@[simp] theorem State.storeSize_A (v : Word) (s : State) : (s.storeSize v).A = s.A := rfl
@[simp] theorem State.storeSize_B (v : Word) (s : State) : (s.storeSize v).B = s.B := rfl
@[simp] theorem State.storeSize_C (v : Word) (s : State) : (s.storeSize v).C = s.C := rfl
@[simp] theorem State.storeSize_ctrl (v : Word) (s : State) : (s.storeSize v).ctrl = s.ctrl := rfl
@[simp] theorem State.storeSize_size (v : Word) (s : State) :
    (s.storeSize v).size = clampSize v := rfl
@[simp] theorem State.storeSize_status (v : Word) (s : State) :
    (s.storeSize v).status = s.status := rfl
@[simp] theorem State.storeSize_irq (v : Word) (s : State) : (s.storeSize v).irq = s.irq := rfl
@[simp] theorem State.storeSize_config (v : Word) (s : State) :
    (s.storeSize v).config = s.config := rfl
@[simp] theorem State.storeSize_pending (v : Word) (s : State) :
    (s.storeSize v).pending = s.pending := rfl
@[simp] theorem State.storeSize_returned (v : Word) (s : State) :
    (s.storeSize v).returned = s.returned := rfl

/-! ### `storeCtrl` -/

@[simp] theorem State.storeCtrl_A (v : Word) (s : State) : (s.storeCtrl v).A = s.A := rfl
@[simp] theorem State.storeCtrl_B (v : Word) (s : State) : (s.storeCtrl v).B = s.B := rfl
@[simp] theorem State.storeCtrl_C (v : Word) (s : State) : (s.storeCtrl v).C = s.C := rfl
@[simp] theorem State.storeCtrl_ctrl (v : Word) (s : State) :
    (s.storeCtrl v).ctrl = storedControl s.config v := rfl
@[simp] theorem State.storeCtrl_size (v : Word) (s : State) : (s.storeCtrl v).size = s.size := rfl
@[simp] theorem State.storeCtrl_status (v : Word) (s : State) :
    (s.storeCtrl v).status = s.status := rfl
@[simp] theorem State.storeCtrl_irq (v : Word) (s : State) : (s.storeCtrl v).irq = s.irq := rfl
@[simp] theorem State.storeCtrl_config (v : Word) (s : State) :
    (s.storeCtrl v).config = s.config := rfl
@[simp] theorem State.storeCtrl_pending (v : Word) (s : State) :
    (s.storeCtrl v).pending = s.pending := rfl
@[simp] theorem State.storeCtrl_returned (v : Word) (s : State) :
    (s.storeCtrl v).returned = s.returned := rfl

/-! ### `start` -/

@[simp] theorem State.start_A (v : Word) (s : State) :
    (s.start v).A = s.A := by
  unfold State.start; cases irqEnableBit v <;> rfl
@[simp] theorem State.start_B (v : Word) (s : State) :
    (s.start v).B = s.B := by
  unfold State.start; cases irqEnableBit v <;> rfl
@[simp] theorem State.start_C (v : Word) (s : State) :
    (s.start v).C = s.multiply.C := by
  unfold State.start; cases irqEnableBit v <;> rfl
@[simp] theorem State.start_ctrl (v : Word) (s : State) :
    (s.start v).ctrl = s.ctrl := by
  unfold State.start; cases irqEnableBit v <;> rfl
@[simp] theorem State.start_size (v : Word) (s : State) :
    (s.start v).size = s.size := by
  unfold State.start; cases irqEnableBit v <;> rfl
@[simp] theorem State.start_status (v : Word) (s : State) :
    (s.start v).status = (s.status ||| 0b01#2) ||| 0b10#2 := by
  unfold State.start; cases irqEnableBit v <;> rfl
@[simp] theorem State.start_irq (v : Word) (s : State) :
    (s.start v).irq = (s.irq || irqEnableBit v) := by
  unfold State.start; cases irqEnableBit v <;> simp [State.assertIrq, State.setEnded, State.multiply, State.setStarted]
@[simp] theorem State.start_config (v : Word) (s : State) :
    (s.start v).config = s.config := by
  unfold State.start; cases irqEnableBit v <;> rfl
@[simp] theorem State.start_pending (v : Word) (s : State) :
    (s.start v).pending = s.pending := by
  unfold State.start; cases irqEnableBit v <;> rfl
@[simp] theorem State.start_returned (v : Word) (s : State) :
    (s.start v).returned = s.returned := by
  unfold State.start; cases irqEnableBit v <;> rfl

/-! ### `resetStat` -/

@[simp] theorem State.resetStat_A (s : State) : (s.resetStat).A = s.A := rfl
@[simp] theorem State.resetStat_B (s : State) : (s.resetStat).B = s.B := rfl
@[simp] theorem State.resetStat_C (s : State) : (s.resetStat).C = s.C := rfl
@[simp] theorem State.resetStat_ctrl (s : State) : (s.resetStat).ctrl = s.ctrl := rfl
@[simp] theorem State.resetStat_size (s : State) : (s.resetStat).size = s.size := rfl
@[simp] theorem State.resetStat_status (s : State) : (s.resetStat).status = 0b00#2 := rfl
@[simp] theorem State.resetStat_irq (s : State) : (s.resetStat).irq = false := rfl
@[simp] theorem State.resetStat_config (s : State) : (s.resetStat).config = s.config := rfl
@[simp] theorem State.resetStat_pending (s : State) : (s.resetStat).pending = s.pending := rfl
@[simp] theorem State.resetStat_returned (s : State) : (s.resetStat).returned = s.returned := rfl

end Sys2Proof.Machine
end

