-- ==== Sys2Proof/Laws/Ops.lean ====
section
/-! SUPPORT. What each shared operation does, said once. -/

namespace Sys2Proof.Machine

/-! ### Operands -/

/-- `min(u(v), 10)` (41_register_writes.md R88). -/
theorem clampSize_val (v : Word) : (clampSize v).val = min v.toNat 10 := by
  by_cases h : v.toNat > 10
  · have : clampSize v = 10 := by simp [clampSize, h]
    rw [this]
    show 10 = min v.toNat 10
    omega
  · have : clampSize v = ⟨v.toNat, by omega⟩ := by simp [clampSize, h]
    rw [this]
    show v.toNat = min v.toNat 10
    omega

theorem clampSize_of_le {v : Word} {n : Fin 11} (h : v.toNat = n.val) : clampSize v = n := by
  apply Fin.ext
  rw [clampSize_val, h]
  have := n.isLt
  omega

theorem sizeWord_toNat (n : Fin 11) : (sizeWord n).toNat = n.val := by
  have := n.isLt
  simp only [sizeWord, BitVec.toNat_ofNat]
  omega

theorem statusWord_toNat (b : BitVec 2) : (statusWord b).toNat = b.toNat := by
  have := b.isLt
  simp only [statusWord, BitVec.toNat_setWidth]
  omega

@[simp] theorem storedControl_masked (cfg : Config) (v : Word) :
    storedControl cfg v &&& cfg.ctrlStoreMask = storedControl cfg v := by
  simp [storedControl, BitVec.and_assoc]

/-- With the decided mask the written value is stored whole (10_state.md R16). -/
theorem storedControl_allOnes {cfg : Config} (h : cfg.ctrlStoreMask = 0xFFFFFFFF#32) (v : Word) :
    storedControl cfg v = v := by
  rw [storedControl, h]
  exact BitVec.and_allOnes (x := v)

/-! ### The disable gate -/

theorem gatedRead_of_enabled {s : State} (h : s.enabled = true) (g l : Word) :
    s.gatedRead g l = s.answer l := by
  simp [State.gatedRead, h]

theorem gatedRead_of_disabled {s : State} (h : s.enabled = false) (g l : Word) :
    s.gatedRead g l = s.answer g := by
  simp [State.gatedRead, h]

theorem enabled_congr {s t : State} (h : s.ctrl = t.ctrl) : s.enabled = t.enabled := by
  simp [State.enabled, h]

/-! ### The multiply engine -/

theorem multiply_C_of_lt {s : State} {r : Nat} (h : r < s.size.val) (hr : r < 10) :
    s.multiply.C[r] = rowProduct s.A s.B s.size ⟨r, h⟩ := by
  simp [State.multiply, h]

/-- The cells at and above `SIZE` keep their values (43_multiply_engine.md R117). -/
theorem multiply_C_of_le {s : State} {r : Nat} (h : s.size.val ≤ r) (hr : r < 10) :
    s.multiply.C[r] = s.C[r] := by
  simp [State.multiply, Nat.not_lt.mpr h]

theorem multiply_eq_of_size_zero {s : State} (h : s.size = 0) : s.multiply = s := by
  have hC : s.multiply.C = s.C := by
    apply Vector.ext
    intro r hr
    exact multiply_C_of_le (by simp [h]) hr
  cases s
  simp only [State.multiply] at hC ⊢
  rw [hC]

/-- The dot product as a sum over the columns. -/
theorem exactDot_eq_sum (A : Vector Word 100) (B : Vector Word 10) (n : Fin 11) (r : Fin n.val) :
    exactDot A B n r =
      ∑ c : Fin n.val, (matrixElement A n r c).toInt * (vectorElement B n c).toInt := by
  simp [exactDot, List.sum_ofFn]

/-! ### The commands -/

theorem status_started_ended (b : BitVec 2) : (b ||| 0b01#2) ||| 0b10#2 = 0b11#2 := by
  revert b; decide

/-- All that `START()` does (42_control_commands.md R103). -/
theorem start_eq (v : Word) (s : State) :
    s.start v =
      { s with C := s.multiply.C, status := 0b11#2, irq := s.irq || irqEnableBit v } := by
  unfold State.start
  have hs := status_started_ended s.status
  cases irqEnableBit v <;>
    simp only [State.assertIrq, State.setEnded, State.multiply, State.setStarted, hs, Bool.or_true,
      Bool.or_false] <;> rfl

/-- All that `RESET()` does (42_control_commands.md R105). -/
theorem resetStat_eq (s : State) : s.resetStat = { s with status := 0b00#2, irq := false } := rfl

/-! ### The step -/

theorem step_nil {s : State} (h : s.pending = []) : step s = .next s := by
  simp [step, h]

theorem step_cons {s : State} {t : Transaction} {rest : List Transaction} (h : s.pending = t :: rest) :
    step s = exec (dispatch t) { s with pending := rest } := by
  simp [step, h]

end Sys2Proof.Machine
end

