-- ==== Sys2Proof/Laws/PerInstr.lean ====
section
/-! SUPPORT. The lemmas about instructions as syntax that are said per instruction, one lemma for each
constructor of Instr. -/

namespace Sys2Proof.Laws.Packing

/-- The word of an encodable instruction unpacks to the instruction's transaction (30_encoding.md
R51). -/
def Statement (i : Instr) : Prop :=
  i.encodable = true → Transaction.unpack (encode i) = i.transaction

theorem rdA (i : Fin 100) : Statement (.rdA i) := fun _ =>
  unpack_pack_rd (by have := i.isLt; simp only [cellOffsetA]; omega) (by decide)

theorem rdB (i : Fin 10) : Statement (.rdB i) := fun _ =>
  unpack_pack_rd (by have := i.isLt; simp only [cellOffsetB]; omega) (by decide)

theorem rdC (i : Fin 10) : Statement (.rdC i) := fun _ =>
  unpack_pack_rd (by have := i.isLt; simp only [cellOffsetC]; omega) (by decide)

theorem rdCtrl : Statement .rdCtrl := fun _ => unpack_pack_rd (by decide) (by decide)

theorem rdSize : Statement .rdSize := fun _ => unpack_pack_rd (by decide) (by decide)

theorem rdStatus : Statement .rdStatus := fun _ => unpack_pack_rd (by decide) (by decide)

theorem rdId : Statement .rdId := fun _ => unpack_pack_rd (by decide) (by decide)

theorem rdInv (off : Nat) : Statement (.rdInv off) := fun h =>
  unpack_pack_rd (by simpa [Instr.encodable] using h) (by decide)

theorem wrA (i : Fin 100) (v : Word) : Statement (.wrA i v) := fun _ =>
  unpack_pack_wr v (by have := i.isLt; simp only [cellOffsetA]; omega) (by decide)

theorem wrB (i : Fin 10) (v : Word) : Statement (.wrB i v) := fun _ =>
  unpack_pack_wr v (by have := i.isLt; simp only [cellOffsetB]; omega) (by decide)

theorem wrC (i : Fin 10) (v : Word) : Statement (.wrC i v) := fun _ =>
  unpack_pack_wr v (by have := i.isLt; simp only [cellOffsetC]; omega) (by decide)

theorem wrSize (v : Word) : Statement (.wrSize v) := fun _ => unpack_pack_wr v (by decide) (by decide)

theorem wrStatus (v : Word) : Statement (.wrStatus v) := fun _ => unpack_pack_wr v (by decide) (by decide)

theorem wrId (v : Word) : Statement (.wrId v) := fun _ => unpack_pack_wr v (by decide) (by decide)

theorem wrInv (off : Nat) (v : Word) : Statement (.wrInv off v) := fun h =>
  unpack_pack_wr v (by simpa [Instr.encodable] using h) (by decide)

theorem wrCtrlStart (v : Word) : Statement (.wrCtrlStart v) := fun _ => unpack_pack_wr v (by decide) (by decide)

theorem wrCtrlReset (v : Word) : Statement (.wrCtrlReset v) := fun _ => unpack_pack_wr v (by decide) (by decide)

theorem wrCtrlCfg (v : Word) : Statement (.wrCtrlCfg v) := fun _ => unpack_pack_wr v (by decide) (by decide)

end Sys2Proof.Laws.Packing
end

