-- ==== Sys2Proof/Laws/Run.lean ====
section
/-! SUPPORT. How a run unfolds, and that it is the run of the host's interface. -/

namespace Sys2Proof.Machine

@[simp] theorem run_zero (s : State) : run 0 s = .next s := rfl

/-- A run goes on from the state a step answers. -/
theorem run_succ {s t : State} (h : step s = .next t) (k : Nat) : run (k + 1) s = run k t := by
  simp only [run, h]

/-- The run of the host's interface (Host/Core.lean) is this run. -/
theorem hostRun_eq_run (k : Nat) (s : State) : Host.Core.run Sys2Proof.core k s = run k s := by
  induction k generalizing s with
  | zero => rfl
  | succ k ih =>
    refine (Host.Core.run.eq_2 Sys2Proof.core s k).trans ?_
    have hstep : Sys2Proof.core.step s = step s := rfl
    simp only [run]
    rw [hstep]
    cases step s with
    | next t => exact ih t
    | fault f => cases f
    | refused r => rfl

end Sys2Proof.Machine
end

