-- ==== Sys2Proof/Tests/Slice0.lean ====
section
/-! SUPPORT. The model's own tests: ill-formed terms the check refuses, words written out from the spec's
encoding, test vectors of 95_test_vectors.md, and a witness for the hypotheses of each statement. Expected
results are the spec's, by the vector or program named. -/

namespace Sys2Proof.Tests

open Sys2Proof.Machine

/-! ## WellFormed refuses ill-formed terms -/

/-- Offset `0x400` is Control, not a hole. -/
theorem test_rdInv_at_register_ill_formed : (Instr.rdInv 0x400).wellFormed = false := by decide
theorem test_rdInv_at_cell_ill_formed : (Instr.rdInv 0x18C).wellFormed = false := by decide
theorem test_wrInv_at_register_ill_formed : (Instr.wrInv 0x430 5).wellFormed = false := by decide
theorem test_start_without_bit_ill_formed : (Instr.wrCtrlStart 0x9).wellFormed = false := by decide
theorem test_reset_with_start_ill_formed : (Instr.wrCtrlReset 0xC).wellFormed = false := by decide
theorem test_reset_without_bit_ill_formed : (Instr.wrCtrlReset 0x1).wellFormed = false := by decide
theorem test_cfg_with_start_ill_formed : (Instr.wrCtrlCfg 0x4).wellFormed = false := by decide
theorem test_cfg_with_reset_ill_formed : (Instr.wrCtrlCfg 0x8).wellFormed = false := by decide
theorem test_wide_offset_not_encodable : (Instr.rdInv 0x10000).encodable = false := by decide
theorem test_wide_write_offset_not_encodable : (Instr.wrInv 0x10000 0).encodable = false := by decide

/-! ## Decoding: a word of each class, written out from the fields of 30_encoding.md R51 -/

/-- `rw`, seven zeros, `size`, `off`, `v`. -/
theorem test_decode_rdA :
    decodeWord 0b0_0000000_00000100_0000000110001100_00000000000000000000000000000000#64 = .rdA 99 := by
  decide
theorem test_decode_rdB : decodeWord 0x0004022400000000#64 = .rdB 9 := by decide
theorem test_decode_rdC : decodeWord 0x0004030400000000#64 = .rdC 1 := by decide
theorem test_decode_rdCtrl : decodeWord 0x0004040000000000#64 = .rdCtrl := by decide
theorem test_decode_rdSize : decodeWord 0x0004041000000000#64 = .rdSize := by decide
/-- The example of R51. -/
theorem test_decode_rdStatus : decodeWord 0x0004042000000000#64 = .rdStatus := by decide
/-- V-D3: `size` is ignored. -/
theorem test_decode_rdId_size_8 : decodeWord 0x0008043000000000#64 = .rdId := by decide
theorem test_decode_rdInv : decodeWord 0x0004040100000000#64 = .rdInv 0x401 := by decide
/-- The example of R51. -/
theorem test_decode_wrA : decodeWord 0x80040008FFFFFFFE#64 = .wrA 2 0xFFFFFFFE := by decide
theorem test_decode_wrB :
    decodeWord 0b1_0000000_00000100_0000001000000100_11111111111111111111111111111000#64 =
      .wrB 1 0xFFFFFFF8 := by
  decide
theorem test_decode_wrC : decodeWord 0x80040300DEADBEEF#64 = .wrC 0 0xDEADBEEF := by decide
theorem test_decode_wrSize : decodeWord 0x8004041000000064#64 = .wrSize 100 := by decide
theorem test_decode_wrStatus : decodeWord 0x8004042000000003#64 = .wrStatus 3 := by decide
theorem test_decode_wrId : decodeWord 0x8004043000001234#64 = .wrId 0x1234 := by decide
theorem test_decode_wrInv : decodeWord 0x8004000200000009#64 = .wrInv 2 9 := by decide
/-- P3 step 8: both command bits, a START. -/
theorem test_decode_start : decodeWord 0x800404000000000D#64 = .wrCtrlStart 0xD := by decide
theorem test_decode_reset : decodeWord 0x8004040000000008#64 = .wrCtrlReset 8 := by decide
/-- Bits 62:56 are ignored. -/
theorem test_decode_cfg : decodeWord 0xFF04040000000003#64 = .wrCtrlCfg 3 := by decide

theorem test_decode_too_wide : decode (2 ^ 64) = .error .widerThanTransactionWord := by rfl
theorem test_decodeTableWord : decodeTableWord 64 0x8000041000000000 = some (.wrSize 0) := by decide
theorem test_encode_start : encode (.wrCtrlStart 7) = 0x8004040000000007#64 := by decide
theorem test_encode_rdStatus : encode .rdStatus = 0x0004042000000000#64 := by decide

/-- V-D1. -/
theorem test_decodeOffset_edges :
    decodeOffset 0x18C = .matrixA 99 ∧ decodeOffset 0x190 = .invalid ∧
    decodeOffset 0x1FC = .invalid ∧ decodeOffset 0x224 = .matrixB 9 ∧
    decodeOffset 0x228 = .invalid ∧ decodeOffset 0x324 = .matrixC 9 ∧
    decodeOffset 0x328 = .invalid ∧ decodeOffset 0x434 = .invalid ∧
    decodeOffset 0x500 = .invalid ∧ decodeOffset 0x203 = .invalid := by decide

/-! ## Small states -/

/-- An enabled device, otherwise as after reset, with the listed transactions to come. -/
def enabledWith (ts : List Transaction) : State := { State.reset with ctrl := 1, pending := ts }

/-- A state with given scalars (`CTRL / STATUS / IRQ` of 95_test_vectors.md, section 2.4). -/
def scalars (ctrl : Word) (status : BitVec 2) (irq : Bool) : State :=
  { State.reset with ctrl := ctrl, status := status, irq := irq }

/-- A state of size `n` with the first cells of `A` and `B` as listed and the others 0. -/
def loaded (n : Fin 11) (a b : List Word) : State :=
  { State.reset with
    ctrl := 1, size := n
    A := Vector.ofFn fun i => (a[i.val]?).getD 0
    B := Vector.ofFn fun i => (b[i.val]?).getD 0 }

/-- A test of the state that an outcome answers. -/
def answers (o : Host.Outcome State Fault Refusal) (p : State → Bool) : Bool :=
  match o with
  | .next t => p t
  | .fault _ => false
  | .refused _ => false

/-! ## Reads (section 2.2) -/

/-- V-Z1 and V-R9: right after reset the device is disabled, and Id reads 0. -/
theorem test_reset_reads_zero :
    answers (step (State.reset.withFetchWord 64 0x0004043000000000)) (·.returned == [0]) := by decide
/-- V-R1: a cell may hold the sentinel. -/
theorem test_rdA_returns_cell :
    answers (exec (.rdA 99) { loaded 0 [] [] with A := Vector.replicate 100 0xA0E0A0E0 })
      (·.returned == [0xA0E0A0E0]) := by decide
theorem test_rdB_returns_cell : answers (exec (.rdB 1) (loaded 0 [] [5, 6])) (·.returned == [6]) := by
  decide
theorem test_rdC_returns_cell :
    answers (exec (.rdC 9) { loaded 0 [] [] with C := Vector.ofFn fun i => BitVec.ofNat 32 i.val })
      (·.returned == [9]) := by decide
/-- V-R4. -/
theorem test_rdCtrl_whole :
    answers (exec .rdCtrl (scalars 0xFFFFFFF1 0 false)) (·.returned == [0xFFFFFFF1]) := by decide
theorem test_rdSize : answers (exec .rdSize (loaded 10 [] [])) (·.returned == [0xA]) := by decide
/-- R76, the example. -/
theorem test_rdStatus_acknowledges :
    answers (exec .rdStatus (scalars 1 3 true))
      (fun t => t.returned == [3] && t.irq == false && t.status == 3) := by decide
/-- V-R11: no acknowledgement while disabled. -/
theorem test_rdStatus_disabled_keeps_line :
    answers (exec .rdStatus (scalars 0 3 true))
      (fun t => t.returned == [0] && t.irq == true && t.status == 3) := by decide
theorem test_rdId : answers (exec .rdId (scalars 1 0 false)) (·.returned == [0x0000C1A0]) := by decide
theorem test_rdInv : answers (exec (.rdInv 0x404) (scalars 1 0 false)) (·.returned == [0xA0E0A0E0]) := by
  decide
/-- V-R10, both values of the parameter. -/
theorem test_rdInv_disabled :
    answers (exec (.rdInv 0x404) (scalars 0 0 false)) (·.returned == [0]) ∧
    answers (exec (.rdInv 0x404) { scalars 0 0 false with
      config := { Config.decided with disabledInvalidRead := 0xA0E0A0E0 } })
      (·.returned == [0xA0E0A0E0]) := by decide

/-! ## Writes (section 2.3) -/

/-- V-W1: stored beyond `SIZE * SIZE`, while disabled too. -/
theorem test_wrA_stores :
    answers (exec (.wrA 99 0x80000000) State.reset)
      (fun t => t.A[99] == 0x80000000 && t.A[98] == 0) := by decide
/-- V-W7: one cell per write. -/
theorem test_wrB_stores_one_cell :
    answers (exec (.wrB 1 7) State.reset)
      (fun t => t.B[0] == 0 && t.B[1] == 7 && t.B[2] == 0) := by decide
/-- V-W2. -/
theorem test_wrC_dropped : answers (exec (.wrC 0 0xDEADBEEF) State.reset) (· == State.reset) := by decide
/-- V-W4: the clamp is unsigned. -/
theorem test_wrSize_clamps :
    [0, 1, 9, 0xA, 0xB, 0x64, 0x7FFFFFFF, 0x80000000, 0xFFFFFFFF].map (fun v => (clampSize v).val) =
      [0, 1, 9, 10, 10, 10, 10, 10, 10] := by decide
/-- V-W5. -/
theorem test_wrStatus_dropped :
    answers (exec (.wrStatus 0) (scalars 7 3 true)) (· == scalars 7 3 true) := by decide
theorem test_wrId_dropped : answers (exec (.wrId 0x1234) State.reset) (· == State.reset) := by decide
/-- V-W3. -/
theorem test_wrInv_dropped : answers (exec (.wrInv 2 5) State.reset) (· == State.reset) := by decide

/-! ## Control writes (section 2.4) -/

/-- The scalars after a Control write. -/
def afterControl (s : State) (v : Word) (ctrl : Word) (status : BitVec 2) (irq : Bool) (m : Mode) : Bool :=
  answers (step { s with pending := [.wr 0x400 4 v] })
    (fun t => t.ctrl == ctrl && t.status == status && t.irq == irq && t.mode == m)

/-- V-C1, V-C2, V-C3, V-C4. -/
theorem test_control_from_reset :
    afterControl (scalars 0 0 false) 0x1 0x1 0 false .idle ∧
    afterControl (scalars 0 0 false) 0x2 0x2 0 false .disabled ∧
    afterControl (scalars 0 0 false) 0x5 0x5 3 false .ended ∧
    afterControl (scalars 0 0 false) 0x7 0x7 3 true .ended := by decide
/-- V-C6, V-C9, V-C10: START_OP with ENABLE clear. -/
theorem test_control_start_disabled :
    afterControl (scalars 0 0 false) 0x6 0x6 0 false .disabled ∧
    afterControl (scalars 7 3 true) 0xC 0xC 3 true .disabled ∧
    afterControl (scalars 1 0 false) 0xC 0xC 0 false .disabled := by decide
/-- V-C5, V-C6 with `START_REQUIRES_ENABLE = false`. -/
theorem test_control_start_not_requiring_enable :
    afterControl { scalars 0 0 false with config := { Config.decided with startRequiresEnable := false } }
      0x6 0x6 3 true .disabled := by decide
/-- V-C7, V-C8, V-C19. -/
theorem test_control_resetStat :
    afterControl (scalars 7 3 true) 0x9 0x9 0 false .idle ∧
    afterControl (scalars 7 3 true) 0x8 0x8 0 false .disabled ∧
    afterControl (scalars 1 0 false) 0xFFFFFFFA 0xFFFFFFFA 0 false .disabled := by decide
/-- V-C11, V-C12, V-C14, V-C15, V-C16, V-C17, V-C18. -/
theorem test_control_line_and_latches :
    afterControl (scalars 7 3 true) 0xD 0xD 3 true .ended ∧
    afterControl (scalars 7 3 false) 0x7 0x7 3 true .ended ∧
    afterControl (scalars 5 3 false) 0x3 0x3 3 false .ended ∧
    afterControl (scalars 7 3 true) 0x1 0x1 3 true .ended ∧
    afterControl (scalars 7 3 true) 0x0 0x0 3 true .disabled ∧
    afterControl (scalars 0 3 true) 0x1 0x1 3 true .ended ∧
    afterControl (scalars 1 0 false) 0xFFFFFFF5 0xFFFFFFF5 3 false .ended := by decide

/-! ## The multiply (section 2.5) -/

/-- The first `n` cells of `C` after the multiply. -/
def results (n : Fin 11) (a b : List Word) : List Word :=
  ((loaded n a b).multiply.C.toList).take n.val

/-- V-M3, V-M4, V-M5, V-M8: wraps, does not saturate. -/
theorem test_multiply_wraps :
    results 1 [0xFFFFFFFF] [0xFFFFFFFF] = [1] ∧ results 1 [0x7FFFFFFF] [2] = [0xFFFFFFFE] ∧
    results 1 [0x80000000] [0xFFFFFFFF] = [0x80000000] ∧
    results 1 [0xB505] [0xB505] = [0x80001219] := by decide
/-- V-M10. -/
theorem test_multiply_mixed_signs :
    results 2 [0xFFFFFFFD, 4, 5, 0xFFFFFFFA] [7, 0xFFFFFFF8] = [0xFFFFFFCB, 0x53] := by decide
/-- E1 with the result the rules give (C4). -/
theorem test_multiply_source_example :
    results 4 [1, 2, 4, 0, 0, 5, 7, 1, 1, 0, 5, 3, 1, 1, 0, 4] [3, 1, 2, 4] = [13, 23, 25, 20] := by decide
/-- V-M12: full size. -/
theorem test_multiply_full_size :
    results 10 ((List.range 100).map fun i => BitVec.ofNat 32 (i + 1))
      ((List.range 10).map fun c => BitVec.ofNat 32 (c + 1)) =
      [0x181, 0x3A7, 0x5CD, 0x7F3, 0xA19, 0xC3F, 0xE65, 0x108B, 0x12B1, 0x14D7] := by decide +kernel
/-- V-M15, V-M16: stride `n`, and the stale upper cell of `C`. -/
theorem test_multiply_stride_and_stale_cell :
    (({ loaded 2 [1, 2, 3, 4, 5, 6, 7, 8, 9] [1, 1, 1] with
        C := (loaded 3 [1, 2, 3, 4, 5, 6, 7, 8, 9] [1, 1, 1]).multiply.C } : State).multiply.C.toList).take 3 =
      [3, 7, 24] := by decide

/-! ## Witnesses: states and operands that meet the hypotheses of the statements -/

/-- DecodeOfEncodeIsTheInstruction, at the last encodable invalid offset. -/
theorem witness_round_trip :
    (Instr.wrInv 0xFFFF 5).wellFormed = true ∧ (Instr.wrInv 0xFFFF 5).encodable = true ∧
    (Instr.rdInv 0x434).wellFormed = true ∧ (Instr.wrCtrlReset 0xB).wellFormed = true ∧
    (Instr.wrCtrlStart 0xF).wellFormed = true ∧ (Instr.wrCtrlCfg 0xFFFFFFF3).wellFormed = true := by decide

/-- EachTransactionHasTheClassOfItsTarget: each target at the ends of its window, and each class of control
word. -/
theorem witness_targets :
    decodeOffset 0 = .matrixA 0 ∧ decodeOffset 0x18C = .matrixA 99 ∧ decodeOffset 0x200 = .matrixB 0 ∧
    decodeOffset 0x224 = .matrixB 9 ∧ decodeOffset 0x300 = .matrixC 0 ∧
    decodeOffset 0x324 = .matrixC 9 ∧ decodeOffset 0x400 = .control ∧ decodeOffset 0x410 = .size ∧
    decodeOffset 0x420 = .status ∧ decodeOffset 0x430 = .id ∧ decodeOffset 0x4FC = .invalid ∧
    (0x4#32).getLsbD 2 = true ∧ ((0x8#32).getLsbD 3 = true ∧ (0x8#32).getLsbD 2 = false) ∧
    ((0x3#32).getLsbD 3 = false ∧ (0x3#32).getLsbD 2 = false) := by decide

/-- The third clause of EachTransactionHasTheClassOfItsTarget: two different words that agree where the
dispatch looks. -/
theorem witness_ignored_bits :
    (0x8004000000000005#64).getLsbD 63 = (0xFF01000000000005#64).getLsbD 63 ∧
    (0x8004000000000005#64).extractLsb' 32 16 = (0xFF01000000000005#64).extractLsb' 32 16 ∧
    (0x8004000000000005#64).extractLsb' 0 32 = (0xFF01000000000005#64).extractLsb' 0 32 := by decide

/-- StepRunsTheNextTransaction. -/
theorem witness_pending :
    (enabledWith [.rd 0x430 4]).pending = .rd 0x430 4 :: [] ∧ State.reset.pending = [] := by decide

/-- The statements about reads of an enabled device, and of a disabled one. -/
theorem witness_enabled_and_disabled :
    (scalars 0xFFFFFFFF 3 true).ctrl.getLsbD 0 = true ∧ (scalars 0xFFFFFFFF 3 true).Inv ∧
    (scalars 0xFFFFFFFE 3 true).ctrl.getLsbD 0 = false ∧
    State.reset.config = Config.decided ∧ isHole 0x190 = true ∧ isHole 0xFFFF0 = true := by decide

/-- ReadsChangeAtMostTheLine: the line goes down at Status and stays elsewhere. -/
theorem witness_reads :
    ({ scalars 1 3 true with pending := [.rd 0x420 4] } : State).pending = .rd 0x420 4 :: [] ∧
    ({ scalars 1 3 true with pending := [.rd 0x300 4] } : State).pending = .rd 0x300 4 :: [] ∧
    (0x300 : Nat) ≠ 0x420 := by decide

/-- SizeReadsBackClamped: both sides of the bound. -/
theorem witness_size_read_back :
    (enabledWith [.wr 0x410 4 10, .rd 0x410 4]).ctrl.getLsbD 0 = true ∧ (10#32).toNat ≤ 10 ∧
    (11#32).toNat > 10 ∧
    answers (runProgram (enabledWith [.wr 0x410 4 11, .rd 0x410 4])) (·.returned == [10]) := by decide

/-- StoresChangeOnlyTheirTarget: a store to the first and to the last cell. -/
theorem witness_stores :
    (0x18C : Nat) ≠ 0x400 ∧ decodeOffset 0x18C = .matrixA 99 ∧ decodeOffset 0x200 = .matrixB 0 ∧
    Target.matrixA 98 ≠ decodeOffset 0x18C ∧
    (enabledWith [.wr 0x18C 4 1]).pending = .wr 0x18C 4 1 :: [] := by decide

/-- WritesDoNotDependOnStoredControl: an enabled and a disabled state that differ only in `CTRL`. -/
theorem witness_same_but_ctrl :
    SameButCtrl { scalars 1 0 false with pending := [.wr 0x400 4 5] }
      { scalars 0 0 false with pending := [.wr 0x400 4 5] } := by decide

/-- StartMultipliesAndSetsStatus, StartWithEnableClearFollowsTheParameter (both values),
SizeZeroMultiplyWritesNoCell, SizeTwoMultiplyReadsPackedRows, ResetStatClearsStatusAndLine,
ConfigurationWriteChangesOnlyControl. -/
theorem witness_control_values :
    ((5#32).getLsbD 2 = true ∧ (5#32).getLsbD 0 = true) ∧ ((6#32).getLsbD 2 = true ∧ (6#32).getLsbD 0 = false) ∧
    State.reset.config.startRequiresEnable = true ∧
    ({ Config.decided with startRequiresEnable := false } : Config).startRequiresEnable = false ∧
    State.reset.size = 0 ∧ (loaded 2 [] []).size = 2 ∧ (loaded 10 [] []).size = 10 ∧
    ((9#32).getLsbD 3 = true ∧ (9#32).getLsbD 2 = false) ∧
    ((3#32).getLsbD 3 = false ∧ (3#32).getLsbD 2 = false) ∧
    State.reset.config.ctrlStoreMask.getLsbD 0 = true ∧
    State.reset.config.ctrlStoreMask = 0xFFFFFFFF#32 := by decide

/-- ControlWritesFollowTheTransitionTable and EveryStepKeepsTheInvariant: a state of the invariant with the
line asserted, before each class of Control write. -/
theorem witness_invariant :
    ({ scalars 7 3 true with pending := [.wr 0x400 4 9] } : State).Inv ∧ State.reset.Inv ∧
    answers (step { scalars 7 3 true with pending := [.wr 0x400 4 9] }) (fun t => decide t.Inv) := by decide

/-- ReadModifyWriteOfControlRetriggers. -/
theorem witness_retrigger :
    answers (runProgram { loaded 1 [2] [3] with
      pending := [.wr 0x400 4 5, .wr 0 4 4, .rd 0x400 4, .wr 0x400 4 7] })
      (fun t => t.returned == [5] && t.C[0] == 0xC && t.irq) := by decide

/-- EnablingThroughTheGateLosesStoredBits: a disabled device with a stored IRQ_ENABLE. -/
theorem witness_gate_loses_bits :
    (scalars 2 0 false).ctrl.getLsbD 0 = false ∧
    answers (runProgram { scalars 2 0 false with pending := [.rd 0x400 4] }) (·.returned == [0]) := by decide

/-- MultiplyReadsOnlyPopulatedCells: two different loads that agree on the populated cells (V-M17). -/
theorem witness_populated_cells :
    (loaded 2 [1, 2, 3, 4] [5, 6]).size = (loaded 2 [1, 2, 3, 4, 0x7FFFFFFF] [5, 6, 0x7FFFFFFF]).size ∧
    (∀ k : Fin 100, k.val < 4 → (loaded 2 [1, 2, 3, 4] [5, 6]).A[k.val] =
      (loaded 2 [1, 2, 3, 4, 0x7FFFFFFF] [5, 6, 0x7FFFFFFF]).A[k.val]) ∧
    (∀ c : Fin 10, c.val < 2 → (loaded 2 [1, 2, 3, 4] [5, 6]).B[c.val] =
      (loaded 2 [1, 2, 3, 4, 0x7FFFFFFF] [5, 6, 0x7FFFFFFF]).B[c.val]) := by decide +kernel

/-- LoadStartReadGivesTheProduct: P1's problem, with an expected result of the spec. -/
theorem witness_load_start_read :
    answers (runProgram { State.reset with
      pending := multiplyProgram 2 (fun k => BitVec.ofNat 32 (k + 1)) (fun c => BitVec.ofNat 32 (c + 5)) 7 })
      (fun t => t.returned == [0x11, 0x27] && t.irq) := by decide

/-- TheLineHasExactlyItsWriters: the line goes up, and goes down either way. -/
theorem witness_line :
    answers (exec (.wrCtrlStart 7) (scalars 0 0 false)) (·.irq) ∧
    answers (exec .rdStatus (scalars 1 3 true)) (!·.irq) ∧
    answers (exec (.wrCtrlReset 8) (scalars 0 3 true)) (!·.irq) := by decide

/-- SecondStatusReadReportsTheSameBits (E7). -/
theorem witness_status_twice :
    answers (runProgram { scalars 7 3 true with pending := [.rd 0x420 4, .rd 0x420 4] })
      (fun t => t.returned == [3, 3] && !t.irq) := by decide

/-- ChangingEnablesKeepsTheLine: a START without IRQ_ENABLE, and a configuration write with it; a Status
write whose value no Control clause covers, with the line asserted. -/
theorem witness_enables :
    ((5#32).getLsbD 1 = false ∧ (5#32).getLsbD 3 = false) ∧
    ((2#32).getLsbD 2 = false ∧ (2#32).getLsbD 3 = false) ∧
    answers (step { scalars 7 3 true with pending := [.wr 0x420 4 0xF] }) (·.irq) := by decide

/-- RunningIsNeverSeen: a run from the reset state through a START. -/
theorem witness_run :
    answers (runProgram { State.reset with pending := [.wr 0x400 4 7, .rd 0x420 4] })
      (fun t => t.mode == .ended) := by decide

/-- CellsHoldUntilWritten: a list with a write of another cell and a plain Control write. -/
theorem witness_unwritten_cell :
    (∀ z v, Transaction.wr (4 * (5 : Fin 100).val) z v ∉
      (enabledWith [.wr 0 4 1, .wr 0x400 4 3]).pending) ∧
    (∀ z v, Transaction.wr (0x200 + 4 * (5 : Fin 10).val) z v ∉
      (enabledWith [.wr 0 4 1, .wr 0x400 4 3]).pending) ∧
    (∀ z v, v.getLsbD 2 = true → Transaction.wr 0x400 z v ∉
      (enabledWith [.wr 0 4 1, .wr 0x400 4 3]).pending) := by
  refine ⟨by simp [enabledWith], by simp [enabledWith], ?_⟩
  intro z v hv h
  have h3 : v = 3#32 := by simp [enabledWith] at h; exact h.2
  subst h3
  exact absurd hv (by decide)

/-- WritesWhileDisabledPersist (E3, P2). -/
theorem witness_persist :
    answers (runProgram { State.reset with pending := [.wr 0 4 5, .wr 0x200 4 6, .rd 0 4, .wr 0x400 4 1,
      .rd 0 4, .rd 0x200 4] }) (·.returned == [0, 5, 6]) := by decide

/-- ADisabledDeviceRevealsNothing: two disabled devices with different cells and the same list. -/
theorem witness_disabled_pair :
    (loaded 0 [1] []).A ≠ (loaded 0 [2] []).A ∧
    ({ loaded 0 [1] [] with ctrl := 0, pending := [.rd 0 4] } : State).ctrl.getLsbD 0 = false ∧
    (∀ z v, Transaction.wr 0x400 z v ∉
      ({ loaded 0 [1] [] with ctrl := 0, pending := [.rd 0 4] } : State).pending) := by
  refine ⟨by decide, by decide, ?_⟩
  intro z v
  simp

end Sys2Proof.Tests
end

section
/-! Address decode inverted (20_memory.md R32): each target with the offsets of its register, written
from the address map of R30, and decode as the function that map describes. -/

namespace Sys2Proof

/-- The offsets that belong to a target in the address map of 20_memory.md R30. -/
def Target.occupies : Target → Nat → Prop
  | .matrixA i, off => off = 4 * i.val
  | .matrixB i, off => off = 0x200 + 4 * i.val
  | .matrixC i, off => off = 0x300 + 4 * i.val
  | .control, off => off = 0x400
  | .size, off => off = 0x410
  | .status, off => off = 0x420
  | .id, off => off = 0x430
  | .invalid, off => isHole off = true

theorem isHole_iff (off : Nat) :
    isHole off = true ↔ off % 4 ≠ 0 ∨ (0x190 ≤ off ∧ off < 0x200) ∨ (0x228 ≤ off ∧ off < 0x300) ∨
      (0x328 ≤ off ∧ off < 0x400) ∨ (0x404 ≤ off ∧ off < 0x410) ∨ (0x414 ≤ off ∧ off < 0x420) ∨
      (0x424 ≤ off ∧ off < 0x430) ∨ 0x434 ≤ off := by
  simp [isHole, or_assoc]

/-- The target an offset decodes to is one the offset belongs to: one goal for each arm of R32. -/
theorem decodeOffset_occupies (off : Nat) : (decodeOffset off).occupies off := by
  unfold decodeOffset
  split_ifs <;> simp only [Target.occupies, isHole_iff] <;> omega

/-- A hole has no register, so no other target can be the one it decodes to. -/
theorem decodeOffset_of_isHole {off : Nat} (h : isHole off = true) : decodeOffset off = .invalid := by
  rw [isHole_iff] at h
  have hocc := decodeOffset_occupies off
  cases hg : decodeOffset off with
  | invalid => rfl
  | matrixA i | matrixB i | matrixC i | control | size | status | id =>
    rw [hg] at hocc
    simp only [Target.occupies] at hocc
    omega

/-- An offset decodes to a target exactly when the address map gives it to that target (20_memory.md
R30, R32). -/
theorem decodeOffset_eq_iff (off : Nat) (g : Target) : decodeOffset off = g ↔ g.occupies off := by
  constructor
  · rintro rfl
    exact decodeOffset_occupies off
  · intro h
    cases g with
    | matrixA i => exact h ▸ decodeOffset_cellA i
    | matrixB i => exact h ▸ decodeOffset_cellB i
    | matrixC i => exact h ▸ decodeOffset_cellC i
    | control => exact h ▸ decodeOffset_control
    | size => exact h ▸ decodeOffset_size
    | status => exact h ▸ decodeOffset_status
    | id => exact h ▸ decodeOffset_id
    | invalid => exact decodeOffset_of_isHole h

/-- Settles O7: each clause is `decodeOffset_eq_iff` at its target. -/
theorem decodeFollowsTheAddressMap : Obligations.DecodeFollowsTheAddressMap := by
  unfold Obligations.DecodeFollowsTheAddressMap
  intro off
  have hmap := decodeOffset_eq_iff off
  exact ⟨fun i => hmap (.matrixA i), fun i => hmap (.matrixB i), fun i => hmap (.matrixC i),
    hmap .control, hmap .size, hmap .status, hmap .id, hmap .invalid⟩

end Sys2Proof
end

section
/-! One transaction after the other (20_memory.md R39): no class stops the machine or looks at the
transactions still to come, and a run splits wherever one likes. -/

namespace Sys2Proof.Machine

/-! ### What one class does with the list -/

/-- Every class answers a state (60_exceptions.md R140). -/
theorem exec_total (i : Instr) (s : State) : ∃ t, exec i s = .next t := by
  cases i <;> exact ⟨_, rfl⟩

theorem start_withPending (v : Word) (s : State) (later : List Transaction) :
    State.start v { s with pending := later } = { s.start v with pending := later } := by
  rw [start_eq, start_eq]
  rfl

/-- No class looks at the transactions still to come, and none changes them: another list beside the
same registers gives the same answer beside that list. -/
theorem exec_withPending {i : Instr} {s t : State} (h : exec i s = .next t)
    (later : List Transaction) :
    exec i { s with pending := later } = .next { t with pending := later } := by
  cases i with
  | rdStatus =>
    cases h
    show Host.Outcome.next (if s.statusReadAcks then _ else _) = _
    split <;> rfl
  | wrCtrlStart v =>
    cases h
    show Host.Outcome.next
      (if (s.storeCtrl v).startAllowed v then State.start v { s.storeCtrl v with pending := later }
        else { s.storeCtrl v with pending := later }) = _
    rw [start_withPending]
    split <;> rfl
  | _ =>
    cases h
    rfl

/-! ### How a run splits -/

theorem run_one (s : State) : run 1 s = step s := by
  simp only [run]
  cases step s <;> rfl

/-- Every step answers a state (60_exceptions.md R140). -/
theorem step_total (s : State) : ∃ t, step s = .next t := by
  cases h : s.pending with
  | nil => exact ⟨s, step_nil h⟩
  | cons x rest => exact step_cons h ▸ exec_total _ _

/-- A run of `j + k` steps is the run of the first `j`, then of `k` from the state they leave. -/
theorem run_add {j : Nat} {s t : State} (h : run j s = .next t) (k : Nat) :
    run (j + k) s = run k t := by
  induction j generalizing s with
  | zero =>
    cases h
    rw [Nat.zero_add]
  | succ j ih =>
    obtain ⟨u, hu⟩ := step_total s
    rw [run_succ hu] at h
    rw [Nat.add_right_comm, run_succ hu, ih h]

/-- The state the first transactions leave is the same whatever follows them. -/
theorem run_append_pending (s : State) (first : List Transaction) :
    ∃ t : State, ∀ later : List Transaction,
      run first.length { s with pending := first ++ later } = .next { t with pending := later } := by
  induction first generalizing s with
  | nil => exact ⟨s, fun _ => rfl⟩
  | cons x rest ih =>
    obtain ⟨u, hu⟩ := exec_total (dispatch x) s
    obtain ⟨t, ht⟩ := ih u
    refine ⟨t, fun later => ?_⟩
    have hstep : step { s with pending := x :: rest ++ later } =
        .next { u with pending := rest ++ later } :=
      exec_withPending hu (rest ++ later)
    rw [List.length_cons, run_succ hstep, ht]

/-- Settles O49, from the induction over the first transactions, the split of a run, and the run of one
step. -/
theorem transactionsFormOneTotalOrder : Obligations.TransactionsFormOneTotalOrder := by
  unfold Obligations.TransactionsFormOneTotalOrder
  refine ⟨run_append_pending, fun j k s t h => run_add h k, fun s x later => ?_⟩
  rw [run_one, step_cons rfl]

end Sys2Proof.Machine
end

section
/-! The reads of an enabled device (40_register_reads.md, section 2), said once for all targets: the class
of a read is a function of its target, and the live read of every target but Status answers the word the
target holds. -/

namespace Sys2Proof

/-- The class of a read at `off`, once address decode has found its target (30_encoding.md R56). -/
def Target.readClass (off : Nat) : Target → Instr
  | .matrixA i => .rdA i
  | .matrixB i => .rdB i
  | .matrixC i => .rdC i
  | .control => .rdCtrl
  | .size => .rdSize
  | .status => .rdStatus
  | .id => .rdId
  | .invalid => .rdInv off

theorem dispatch_rd_of_decodeOffset {off : Nat} {g : Target} (h : decodeOffset off = g) (size : Nat) :
    dispatch (.rd off size) = g.readClass off := by
  simp only [dispatch, dispatchRead, h]
  cases g <;> rfl

namespace Machine

theorem statusReadAcks_of_enabled {s : State} (h : s.enabled = true) : s.statusReadAcks = true := by
  rw [State.statusReadAcks, h, Bool.true_or]

/-- The gate is open: a read of any target but Status answers the target's word and does nothing else
(40_register_reads.md R71 to R75, R77, R78). -/
theorem exec_readClass_of_enabled {s : State} (h : s.enabled = true) (off : Nat) {g : Target}
    (hg : g ≠ .status) : exec (g.readClass off) s = .next (s.answer (s.wordAt g)) := by
  cases g with
  | status => exact absurd rfl hg
  | matrixA i | matrixB i | matrixC i | control | size | id | invalid =>
    exact congrArg Host.Outcome.next (gatedRead_of_enabled h _ _)

/-- Status is the one target whose live read does more: it deasserts the line (40_register_reads.md
R76). -/
theorem exec_rdStatus_of_enabled {s : State} (h : s.enabled = true) :
    exec .rdStatus s = .next (s.answer (statusWord s.status)).deassertIrq := by
  simp only [exec, execRdStatus, gatedRead_of_enabled h, statusReadAcks_of_enabled h, if_true]

/-- The two values of `STATUS` under the invariant, as the words a read returns. -/
theorem State.Inv.statusWord_eq {s : State} (h : s.Inv) :
    statusWord s.status = 0x00000000#32 ∨ statusWord s.status = 0x00000003#32 := by
  obtain ⟨hclear | hdone, -, -⟩ := h
  · left
    rw [hclear]
    decide
  · right
    rw [hdone]
    decide

/-- Settles O10: the class by the decode of the cell's offset, the answer by the live read of its
target. -/
theorem enabledReadsReturnTheCell : Obligations.EnabledReadsReturnTheCell := by
  unfold Obligations.EnabledReadsReturnTheCell
  intro s size h
  refine ⟨fun i => ⟨?_, ?_⟩, fun i => ⟨?_, ?_⟩, fun i => ⟨?_, ?_⟩⟩
  · exact dispatch_rd_of_decodeOffset (decodeOffset_cellA i) size
  · exact exec_readClass_of_enabled h (cellOffsetA i) (g := .matrixA i) nofun
  · exact dispatch_rd_of_decodeOffset (decodeOffset_cellB i) size
  · exact exec_readClass_of_enabled h (cellOffsetB i) (g := .matrixB i) nofun
  · exact dispatch_rd_of_decodeOffset (decodeOffset_cellC i) size
  · exact exec_readClass_of_enabled h (cellOffsetC i) (g := .matrixC i) nofun

/-- Settles O11: the live reads of the two targets; the word of `SIZE` is `sizeWord`, whose value is
that of a `Fin 11`. -/
theorem enabledReadsReturnControlAndSize : Obligations.EnabledReadsReturnControlAndSize := by
  unfold Obligations.EnabledReadsReturnControlAndSize
  intro s h
  have hvalue : (sizeWord s.size).toNat = s.size.val := sizeWord_toNat s.size
  refine ⟨exec_readClass_of_enabled h 0x400 (g := .control) nofun, sizeWord s.size, hvalue, ?_,
    exec_readClass_of_enabled h 0x410 (g := .size) nofun⟩
  rw [hvalue]
  exact Nat.le_of_lt_succ s.size.isLt

/-- Settles O12, from the live Status read and the two values the invariant leaves `STATUS`. -/
theorem enabledStatusReadDeassertsTheLine : Obligations.EnabledStatusReadDeassertsTheLine := by
  unfold Obligations.EnabledStatusReadDeassertsTheLine
  exact fun s h => ⟨exec_rdStatus_of_enabled h, State.Inv.statusWord_eq⟩

/-- Settles O14: a hole decodes to `Invalid`, whose word is the sentinel. -/
theorem enabledInvalidReadReturnsTheSentinel : Obligations.EnabledInvalidReadReturnsTheSentinel := by
  unfold Obligations.EnabledInvalidReadReturnsTheSentinel
  intro s off size h
  exact ⟨fun hole => dispatch_rd_of_decodeOffset (decodeOffset_of_isHole hole) size,
    exec_readClass_of_enabled h off (g := .invalid) nofun⟩

end Machine

end Sys2Proof
end

section
/-! The write transactions (41_register_writes.md), said once for all targets: the class of a write is a
function of its target and word, a write of any target but Control is one store at that target, and a
Control write acts on the state with the word already stored. -/

namespace Sys2Proof

/-- The class of a write of `v` at `off`, once address decode has found its target (30_encoding.md R56). -/
def Target.writeClass (off : Nat) (v : Word) : Target → Instr
  | .matrixA i => .wrA i v
  | .matrixB i => .wrB i v
  | .matrixC i => .wrC i v
  | .control => dispatchControl v
  | .size => .wrSize v
  | .status => .wrStatus v
  | .id => .wrId v
  | .invalid => .wrInv off v

theorem dispatch_wr_of_decodeOffset {off : Nat} {g : Target} (h : decodeOffset off = g) (size : Nat)
    (v : Word) : dispatch (.wr off size v) = g.writeClass off v := by
  simp only [dispatch, dispatchWrite, h]
  cases g <;> rfl

namespace Machine

/-- The store a write of `v` makes at its target; the targets of R87 and R89 to R91 drop it. Control is
the store of 42_control_commands.md R101 alone, before the commands. -/
def State.storeAt (v : Word) (s : State) : Target → State
  | .matrixA i => s.storeA i v
  | .matrixB i => s.storeB i v
  | .size => s.storeSize v
  | .control => s.storeCtrl v
  | .matrixC _ | .status | .id | .invalid => s

/-- A write of any target but Control answers the store at that target (41_register_writes.md R85 to
R91). -/
theorem exec_writeClass (off : Nat) (v : Word) (s : State) {g : Target} (hg : g ≠ .control) :
    exec (g.writeClass off v) s = .next (s.storeAt v g) := by
  cases g with
  | control => exact absurd rfl hg
  | matrixA i | matrixB i | matrixC i | size | status | id | invalid => rfl

/-- Settles O18: the class by the decode of the cell's offset, the answer by the store at its target. -/
theorem cellWritesStoreUnconditionally : Obligations.CellWritesStoreUnconditionally := by
  unfold Obligations.CellWritesStoreUnconditionally
  intro s size v
  refine ⟨fun i => ⟨?_, ?_⟩, fun i => ⟨?_, ?_⟩⟩
  · exact dispatch_wr_of_decodeOffset (decodeOffset_cellA i) size v
  · exact exec_writeClass (cellOffsetA i) v s (g := .matrixA i) nofun
  · exact dispatch_wr_of_decodeOffset (decodeOffset_cellB i) size v
  · exact exec_writeClass (cellOffsetB i) v s (g := .matrixB i) nofun

/-- Settles O19: MatrixC, Id and `Invalid` are targets whose store is dropped. -/
theorem writesWithNoTargetAreDropped : Obligations.WritesWithNoTargetAreDropped := by
  unfold Obligations.WritesWithNoTargetAreDropped
  intro s size v
  refine ⟨fun i => ⟨?_, ?_⟩, ⟨?_, ?_⟩, fun off => ⟨fun hole => ?_, ?_⟩⟩
  · exact dispatch_wr_of_decodeOffset (decodeOffset_cellC i) size v
  · exact exec_writeClass (cellOffsetC i) v s (g := .matrixC i) nofun
  · exact dispatch_wr_of_decodeOffset decodeOffset_id size v
  · exact exec_writeClass 0x430 v s (g := .id) nofun
  · exact dispatch_wr_of_decodeOffset (decodeOffset_of_isHole hole) size v
  · exact exec_writeClass off v s (g := .invalid) nofun

/-! ### The stored `CTRL` beside a write (41_register_writes.md R92) -/

theorem sameButCtrl_withCtrl (s : State) (c : Word) : SameButCtrl s { s with ctrl := c } :=
  ⟨rfl, rfl, rfl, rfl, rfl, rfl, rfl, rfl, rfl⟩

/-- Two states that differ at most in `CTRL` are one state with two control words. -/
theorem SameButCtrl.exists_withCtrl {s s' : State} (h : SameButCtrl s s') :
    ∃ c, s' = { s with ctrl := c } := by
  obtain ⟨hA, hB, hC, hsize, hstatus, hirq, hconfig, hpending, hreturned⟩ := h
  refine ⟨s'.ctrl, ?_⟩
  rw [hA, hB, hC, hsize, hstatus, hirq, hconfig, hpending, hreturned]

/-- Only the store at Control writes `CTRL`, and no other store looks at it. -/
theorem storeAt_withCtrl (v : Word) (s : State) (c : Word) {g : Target} (hg : g ≠ .control) :
    State.storeAt v { s with ctrl := c } g = { s.storeAt v g with ctrl := c } := by
  cases g with
  | control => exact absurd rfl hg
  | matrixA i | matrixB i | matrixC i | size | status | id | invalid => rfl

theorem storeAt_ctrl (v : Word) (s : State) {g : Target} (hg : g ≠ .control) :
    (s.storeAt v g).ctrl = s.ctrl :=
  (congrArg State.ctrl (storeAt_withCtrl v s s.ctrl hg) :)

/-- A Control write overwrites the stored word before its commands look at the state, so every stored
word gives the same answer (42_control_commands.md R101). -/
theorem exec_dispatchControl_withCtrl (v : Word) (s : State) (c : Word) :
    exec (dispatchControl v) { s with ctrl := c } = exec (dispatchControl v) s := by
  have hstore : State.storeCtrl v { s with ctrl := c } = s.storeCtrl v := rfl
  unfold dispatchControl
  split_ifs
  · simp only [exec, execWrCtrlStart, hstore]
  · simp only [exec, execWrCtrlReset, hstore]
  · simp only [exec, execWrCtrlCfg, hstore]

/-- A step on a write runs the class of the target its offset decodes to. -/
theorem step_wr {s : State} {off size : Nat} {v : Word} {rest : List Transaction}
    (h : s.pending = .wr off size v :: rest) :
    step s = exec ((decodeOffset off).writeClass off v) { s with pending := rest } := by
  rw [step_cons h, dispatch_wr_of_decodeOffset rfl]

/-- Settles O24. A Control write answers the same state for both control words; any other write is a
store that carries each control word along. -/
theorem writesDoNotDependOnStoredControl : Obligations.WritesDoNotDependOnStoredControl := by
  unfold Obligations.WritesDoNotDependOnStoredControl
  intro s s' off size v rest hsame hpending
  obtain ⟨c, rfl⟩ := hsame.exists_withCtrl
  rw [step_wr hpending, step_wr (s := { s with ctrl := c }) hpending]
  let r : State := { s with pending := rest }
  by_cases hoff : off = 0x400
  · have hg : decodeOffset off = .control := (decodeOffset_eq_iff off .control).mpr hoff
    rw [hg]
    obtain ⟨t, ht⟩ := exec_total (dispatchControl v) r
    exact ⟨t, t, ht, (exec_dispatchControl_withCtrl v r c).trans ht, sameButCtrl_withCtrl t t.ctrl,
      fun _ => rfl, fun h => absurd hoff h⟩
  · have hg : decodeOffset off ≠ .control := fun h => hoff ((decodeOffset_eq_iff off .control).mp h)
    have ht' := exec_writeClass off v { r with ctrl := c } hg
    rw [storeAt_withCtrl v r c hg] at ht'
    exact ⟨_, _, exec_writeClass off v r hg, ht', sameButCtrl_withCtrl _ c,
      fun h => absurd h hoff, fun _ => ⟨storeAt_ctrl v r hg, rfl⟩⟩

end Machine

end Sys2Proof
end

section
/-! The Control commands and the state machine they drive (42_control_commands.md): which stored bits each
state stands for, what every class leaves of the invariant, and the two commands that run no multiply. -/

namespace Sys2Proof.Machine

/-! ### The states as conditions on the stored bits (42_control_commands.md R100) -/

theorem status_eq_zero_iff (b : BitVec 2) :
    b = 0b00#2 ↔ b.getLsbD 0 = false ∧ b.getLsbD 1 = false := by
  revert b; decide

/-- The table of R100. The state looks at three stored bits, so the four conditions are checked row by
row of their truth table. -/
theorem mode_table (s : State) :
    (s.mode = .disabled ↔ s.ctrl.getLsbD 0 = false) ∧
    (s.mode = .idle ↔ s.ctrl.getLsbD 0 = true ∧ s.status = 0b00#2) ∧
    (s.mode = .running ↔
      s.ctrl.getLsbD 0 = true ∧ s.status.getLsbD 0 = true ∧ s.status.getLsbD 1 = false) ∧
    (s.mode = .ended ↔ s.ctrl.getLsbD 0 = true ∧ s.status.getLsbD 1 = true) := by
  rw [status_eq_zero_iff, State.mode, State.enabled, enableBit]
  generalize s.ctrl.getLsbD 0 = enable, s.status.getLsbD 0 = started, s.status.getLsbD 1 = done
  revert enable started done
  decide

/-! ### The invariant along a run -/

theorem State.Inv.deassertIrq {s : State} (h : s.Inv) : s.deassertIrq.Inv := by
  obtain ⟨hstatus, -, hmask⟩ := h
  exact ⟨hstatus, nofun, hmask⟩

theorem State.Inv.storeCtrl {s : State} (h : s.Inv) (v : Word) : (s.storeCtrl v).Inv := by
  obtain ⟨hstatus, hline, -⟩ := h
  exact ⟨hstatus, hline, storedControl_masked s.config v⟩

/-- `START()` ends with both status bits set, which is all an asserted line asks for
(42_control_commands.md R103). -/
theorem State.Inv.start {s : State} (h : s.Inv) (v : Word) : (s.start v).Inv := by
  obtain ⟨-, -, hmask⟩ := h
  rw [start_eq]
  exact ⟨.inr rfl, fun _ => rfl, hmask⟩

/-- `RESET()` clears the line together with the status bits (42_control_commands.md R105). -/
theorem State.Inv.resetStat {s : State} (h : s.Inv) : s.resetStat.Inv := by
  obtain ⟨-, -, hmask⟩ := h
  exact ⟨.inl rfl, nofun, hmask⟩

/-- Only the Status read and the three Control writes touch a register the invariant speaks of. -/
theorem State.Inv.exec {i : Instr} {s t : State} (h : s.Inv) (ht : exec i s = .next t) : t.Inv := by
  cases i with
  | rdStatus =>
    cases ht
    show State.Inv (if s.statusReadAcks then _ else _)
    split
    · exact h.deassertIrq
    · exact h
  | wrCtrlStart v =>
    cases ht
    show State.Inv (if (s.storeCtrl v).startAllowed v then _ else _)
    split
    · exact (h.storeCtrl v).start v
    · exact h.storeCtrl v
  | wrCtrlReset v =>
    cases ht
    exact (h.storeCtrl v).resetStat
  | wrCtrlCfg v =>
    cases ht
    exact h.storeCtrl v
  | _ =>
    cases ht
    exact h

theorem State.Inv.step {s t : State} (h : s.Inv) (ht : step s = .next t) : t.Inv := by
  cases hp : s.pending with
  | nil =>
    rw [step_nil hp] at ht
    cases ht
    exact h
  | cons x rest =>
    rw [step_cons hp] at ht
    exact State.Inv.exec (s := { s with pending := rest }) h ht

theorem State.Inv.run {k : Nat} {s t : State} (h : s.Inv) (ht : run k s = .next t) : t.Inv := by
  induction k generalizing s with
  | zero =>
    cases ht
    exact h
  | succ k ih =>
    obtain ⟨u, hu⟩ := step_total s
    rw [run_succ hu] at ht
    exact ih (h.step hu) ht

/-- `Running` needs `STATUS = 0b01`, which the invariant rules out. -/
theorem State.Inv.mode_ne_running {s : State} (h : s.Inv) : s.mode ≠ .running := by
  obtain ⟨-, -, hrunning, -⟩ := mode_table s
  rw [Ne, hrunning]
  rintro ⟨-, h0, h1⟩
  obtain ⟨hclear | hdone, -, -⟩ := h
  · rw [hclear] at h0
    exact absurd h0 (by decide)
  · rw [hdone] at h1
    exact absurd h1 (by decide)

/-- Settles O45: the table of R100 state by state, and the invariant, which every run keeps, against
`Running`. -/
theorem runningIsNeverSeen : Obligations.RunningIsNeverSeen := by
  unfold Obligations.RunningIsNeverSeen
  refine ⟨mode_table, fun k s t hs ht => ?_⟩
  have hne : t.mode ≠ .running := (hs.run ht).mode_ne_running
  cases hm : t.mode with
  | disabled => exact .inl rfl
  | idle => exact .inr (.inl rfl)
  | running => exact absurd hm hne
  | ended => exact .inr (.inr rfl)

/-! ### The commands that run no multiply -/

theorem exec_wrCtrlReset (v : Word) (s : State) :
    exec (.wrCtrlReset v) s = .next (s.storeCtrl v).resetStat := rfl

theorem exec_wrCtrlCfg (v : Word) (s : State) : exec (.wrCtrlCfg v) s = .next (s.storeCtrl v) := rfl

theorem storedControl_enableBit {cfg : Config} (h : cfg.ctrlStoreMask.getLsbD 0 = true) (v : Word) :
    (storedControl cfg v).getLsbD 0 = v.getLsbD 0 := by
  rw [storedControl, BitVec.getLsbD_and, h, Bool.and_true]

/-- After `RESET()` only ENABLE is left to tell the state. -/
theorem resetStat_mode (s : State) :
    s.resetStat.mode = if s.ctrl.getLsbD 0 = true then .idle else .disabled := by
  obtain ⟨hdisabled, hidle, -, -⟩ := mode_table s.resetStat
  split
  case isTrue h => exact hidle.mpr ⟨h, rfl⟩
  case isFalse h => exact hdisabled.mpr (Bool.eq_false_of_not_eq_true h)

/-- Settles O28: the store, then `RESET()`, whose state is Idle or Disabled by the stored ENABLE. -/
theorem resetStatClearsStatusAndLine : Obligations.ResetStatClearsStatusAndLine := by
  unfold Obligations.ResetStatClearsStatusAndLine
  intro s v _ _
  refine ⟨(s.storeCtrl v).resetStat, exec_wrCtrlReset v s, rfl, fun hmask => ?_⟩
  rw [resetStat_mode, State.storeCtrl_ctrl, storedControl_enableBit hmask]

/-- Settles O29: the store alone, of the whole word under the decided mask. -/
theorem configurationWriteChangesOnlyControl :
    Obligations.ConfigurationWriteChangesOnlyControl := by
  unfold Obligations.ConfigurationWriteChangesOnlyControl
  intro s v _ _
  refine ⟨exec_wrCtrlCfg v s, fun hmask => ?_⟩
  rw [exec_wrCtrlCfg, State.storeCtrl, storedControl_allOnes hmask]

end Sys2Proof.Machine
end

section
/-! `START()` on an empty multiply (43_multiply_engine.md R119). -/

namespace Sys2Proof.Machine

/-- With ENABLE in the written value START_OP acts, whatever `START_REQUIRES_ENABLE` says
(42_control_commands.md R101). -/
theorem exec_wrCtrlStart_of_enable {v : Word} (h : v.getLsbD 0 = true) (s : State) :
    exec (.wrCtrlStart v) s = .next ((s.storeCtrl v).start v) := by
  have hallowed : (s.storeCtrl v).startAllowed v = true := by
    rw [State.startAllowed, enableBit, h, Bool.true_or]
  simp only [exec, execWrCtrlStart, hallowed, if_true]

/-- An empty multiply keeps every cell, so only the status bits and the line are left to `START()`. -/
theorem start_of_size_zero {s : State} (h : s.size = 0) (v : Word) :
    s.start v = { s with status := 0b11#2, irq := s.irq || irqEnableBit v } := by
  rw [start_eq, multiply_eq_of_size_zero h]

/-- The line after `START()`: asserted by IRQ_ENABLE in the written value, else kept
(42_control_commands.md R103). -/
theorem irq_or_irqEnableBit (irq : Bool) (v : Word) :
    (irq || irqEnableBit v) = if v.getLsbD 1 = true then true else irq := by
  rw [irqEnableBit]
  cases v.getLsbD 1
  · exact Bool.or_false irq
  · exact Bool.or_true irq

/-- Settles O33: START_OP acts, and `START()` runs with the `SIZE` the store of `CTRL` has kept at 0. -/
theorem sizeZeroMultiplyWritesNoCell : Obligations.SizeZeroMultiplyWritesNoCell := by
  unfold Obligations.SizeZeroMultiplyWritesNoCell
  intro s v hsize _ henable
  have hstored : (s.storeCtrl v).size = 0 := hsize
  rw [exec_wrCtrlStart_of_enable henable, start_of_size_zero hstored, irq_or_irqEnableBit]
  rfl

end Sys2Proof.Machine
end

section
/-! No exceptions (60_exceptions.md R140): every run ends in a state, and each transaction is taken off the
list with one word returned for a read and none for a write. -/

namespace Sys2Proof.Machine

/-- No class changes the transactions still to come: `exec_withPending` at the list already there. -/
theorem exec_pending {i : Instr} {s t : State} (h : exec i s = .next t) : t.pending = s.pending := by
  have hkept : exec i s = .next { t with pending := s.pending } := exec_withPending h s.pending
  have ht : t = { t with pending := s.pending } := Host.Outcome.next.inj (h.symm.trans hkept)
  rw [ht]

/-! ### The words a class returns (10_state.md R24) -/

/-- A read answers one word more, through the disable gate; Status then also looks at the line. -/
theorem exec_readClass_returned {off : Nat} {g : Target} {s t : State}
    (h : exec (g.readClass off) s = .next t) : ∃ w, t.returned = s.returned ++ [w] := by
  cases g with
  | status =>
    cases h
    refine ⟨if s.enabled then statusWord s.status else disabledWord, ?_⟩
    split
    · rw [State.deassertIrq_returned, State.gatedRead_returned]
    · rw [State.gatedRead_returned]
  | matrixA i | matrixB i | matrixC i | control | size | id | invalid =>
    cases h
    exact ⟨_, State.gatedRead_returned _ _ _⟩

/-- A Control write is a store, then at most one command, and neither returns a word. -/
theorem exec_dispatchControl_returned {v : Word} {s t : State}
    (h : exec (dispatchControl v) s = .next t) : t.returned = s.returned := by
  unfold dispatchControl at h
  split_ifs at h
  · cases h
    split
    · rw [State.start_returned, State.storeCtrl_returned]
    · rw [State.storeCtrl_returned]
  · cases h
    rw [State.resetStat_returned, State.storeCtrl_returned]
  · cases h
    rw [State.storeCtrl_returned]

theorem storeAt_returned (v : Word) (s : State) (g : Target) :
    (s.storeAt v g).returned = s.returned := by
  cases g <;> rfl

theorem exec_writeClass_returned {off : Nat} {v : Word} {g : Target} {s t : State}
    (h : exec (g.writeClass off v) s = .next t) : t.returned = s.returned := by
  by_cases hg : g = .control
  · subst hg
    exact exec_dispatchControl_returned h
  · cases (exec_writeClass off v s hg).symm.trans h
    exact storeAt_returned v s g

/-! ### Steps and runs -/

/-- A step on a read runs the class of the target its offset decodes to. -/
theorem step_rd {s : State} {off size : Nat} {rest : List Transaction}
    (h : s.pending = .rd off size :: rest) :
    step s = exec ((decodeOffset off).readClass off) { s with pending := rest } := by
  rw [step_cons h, dispatch_rd_of_decodeOffset rfl]

/-- Every number of steps ends in a state, past the end of the list too. -/
theorem neverStops_all (s : State) : neverStops s := by
  intro k
  induction k generalizing s with
  | zero => exact ⟨s, run_zero s⟩
  | succ k ih =>
    obtain ⟨u, hu⟩ := step_total s
    rw [run_succ hu]
    exact ih u

/-- Settles O42: a step runs a class, which answers a state with the rest of the list and the words a read
or a write returns; the runs by induction on the number of steps. -/
theorem noTransactionIsEverRefused : Obligations.NoTransactionIsEverRefused := by
  unfold Obligations.NoTransactionIsEverRefused
  refine ⟨fun s off size rest hpending => ?_, fun s off size v rest hpending => ?_, neverStops_all⟩
  · obtain ⟨t, ht⟩ := exec_total ((decodeOffset off).readClass off) { s with pending := rest }
    obtain ⟨w, hw⟩ := exec_readClass_returned ht
    exact ⟨t, w, (step_rd hpending).trans ht, exec_pending ht, hw⟩
  · obtain ⟨t, ht⟩ := exec_total ((decodeOffset off).writeClass off v) { s with pending := rest }
    have hw := exec_writeClass_returned ht
    exact ⟨t, (step_wr hpending).trans ht, exec_pending ht, hw⟩

end Sys2Proof.Machine
end

section
/-! The round trips of the transaction word (30_encoding.md R51, R56): the word of an instruction decodes to
it, and the instruction of a word encodes to the bits of the word that the dispatch reads. -/

namespace Sys2Proof

/-! ### From the instruction to the word and back -/

theorem unpack_encode (i : Instr) : Laws.Packing.Statement i := by
  cases i with
  | rdA i => exact Laws.Packing.rdA i
  | rdB i => exact Laws.Packing.rdB i
  | rdC i => exact Laws.Packing.rdC i
  | rdCtrl => exact Laws.Packing.rdCtrl
  | rdSize => exact Laws.Packing.rdSize
  | rdStatus => exact Laws.Packing.rdStatus
  | rdId => exact Laws.Packing.rdId
  | rdInv off => exact Laws.Packing.rdInv off
  | wrA i v => exact Laws.Packing.wrA i v
  | wrB i v => exact Laws.Packing.wrB i v
  | wrC i v => exact Laws.Packing.wrC i v
  | wrSize v => exact Laws.Packing.wrSize v
  | wrStatus v => exact Laws.Packing.wrStatus v
  | wrId v => exact Laws.Packing.wrId v
  | wrInv off v => exact Laws.Packing.wrInv off v
  | wrCtrlStart v => exact Laws.Packing.wrCtrlStart v
  | wrCtrlReset v => exact Laws.Packing.wrCtrlReset v
  | wrCtrlCfg v => exact Laws.Packing.wrCtrlCfg v

/-! ### The class of a Control write, by its command bits -/

theorem dispatchControl_of_start {v : Word} (h : v.getLsbD 2 = true) :
    dispatchControl v = .wrCtrlStart v := by
  rw [dispatchControl, if_pos h]

theorem dispatchControl_of_reset {v : Word} (h3 : v.getLsbD 3 = true) (h2 : v.getLsbD 2 = false) :
    dispatchControl v = .wrCtrlReset v := by
  rw [dispatchControl, if_neg (Bool.eq_false_iff.mp h2), if_pos h3]

theorem dispatchControl_of_config {v : Word} (h3 : v.getLsbD 3 = false) (h2 : v.getLsbD 2 = false) :
    dispatchControl v = .wrCtrlCfg v := by
  rw [dispatchControl, if_neg (Bool.eq_false_iff.mp h2), if_neg (Bool.eq_false_iff.mp h3)]

/-- The transaction of a well-formed instruction is dispatched to that instruction. -/
theorem dispatch_transaction {i : Instr} (h : i.wellFormed = true) : dispatch i.transaction = i := by
  cases i with
  | rdA i => exact dispatch_rd_of_decodeOffset (decodeOffset_cellA i) 4
  | rdB i => exact dispatch_rd_of_decodeOffset (decodeOffset_cellB i) 4
  | rdC i => exact dispatch_rd_of_decodeOffset (decodeOffset_cellC i) 4
  | rdCtrl => exact dispatch_rd_of_decodeOffset decodeOffset_control 4
  | rdSize => exact dispatch_rd_of_decodeOffset decodeOffset_size 4
  | rdStatus => exact dispatch_rd_of_decodeOffset decodeOffset_status 4
  | rdId => exact dispatch_rd_of_decodeOffset decodeOffset_id 4
  | rdInv off => exact dispatch_rd_of_decodeOffset (decodeOffset_of_isHole h) 4
  | wrA i v => exact dispatch_wr_of_decodeOffset (decodeOffset_cellA i) 4 v
  | wrB i v => exact dispatch_wr_of_decodeOffset (decodeOffset_cellB i) 4 v
  | wrC i v => exact dispatch_wr_of_decodeOffset (decodeOffset_cellC i) 4 v
  | wrSize v => exact dispatch_wr_of_decodeOffset decodeOffset_size 4 v
  | wrStatus v => exact dispatch_wr_of_decodeOffset decodeOffset_status 4 v
  | wrId v => exact dispatch_wr_of_decodeOffset decodeOffset_id 4 v
  | wrInv off v => exact dispatch_wr_of_decodeOffset (decodeOffset_of_isHole h) 4 v
  | wrCtrlStart v =>
    exact (dispatch_wr_of_decodeOffset decodeOffset_control 4 v).trans (dispatchControl_of_start h)
  | wrCtrlReset v =>
    simp only [Instr.wellFormed, Bool.and_eq_true, Bool.not_eq_true'] at h
    obtain ⟨h3, h2⟩ := h
    exact (dispatch_wr_of_decodeOffset decodeOffset_control 4 v).trans
      (dispatchControl_of_reset h3 h2)
  | wrCtrlCfg v =>
    simp only [Instr.wellFormed, Bool.and_eq_true, Bool.not_eq_true'] at h
    obtain ⟨h3, h2⟩ := h
    exact (dispatch_wr_of_decodeOffset decodeOffset_control 4 v).trans
      (dispatchControl_of_config h3 h2)

/-- Settles O2: the word unpacks to the instruction's transaction, which is dispatched to the
instruction. -/
theorem decodeOfEncodeIsTheInstruction : Obligations.DecodeOfEncodeIsTheInstruction := by
  unfold Obligations.DecodeOfEncodeIsTheInstruction
  intro i hwf henc
  rw [decodeWord, unpack_encode i henc, dispatch_transaction hwf]

/-! ### From the word to the instruction and back -/

/-- The transaction of the class of a read is that read, with the byte count 4. -/
theorem transaction_readClass {off : Nat} {g : Target} (h : g.occupies off) :
    (g.readClass off).transaction = .rd off 4 := by
  cases g with
  | invalid => rfl
  | matrixA i | matrixB i | matrixC i | control | size | status | id =>
    cases h
    rfl

theorem transaction_dispatchControl (v : Word) : (dispatchControl v).transaction = .wr 0x400 4 v := by
  unfold dispatchControl
  split_ifs <;> rfl

/-- The transaction of the class of a write is that write, with the byte count 4. -/
theorem transaction_writeClass {off : Nat} {g : Target} (h : g.occupies off) (v : Word) :
    (g.writeClass off v).transaction = .wr off 4 v := by
  cases g with
  | invalid => rfl
  | control =>
    cases h
    exact transaction_dispatchControl v
  | matrixA i | matrixB i | matrixC i | size | status | id =>
    cases h
    rfl

theorem encode_dispatch_rd (off size : Nat) :
    encode (dispatch (.rd off size)) = Transaction.pack (.rd off 4) := by
  rw [encode, dispatch_rd_of_decodeOffset rfl, transaction_readClass (decodeOffset_occupies off)]

theorem encode_dispatch_wr (off size : Nat) (v : Word) :
    encode (dispatch (.wr off size v)) = Transaction.pack (.wr off 4 v) := by
  rw [encode, dispatch_wr_of_decodeOffset rfl, transaction_writeClass (decodeOffset_occupies off)]

/-! ### The fields of a word and their masks -/

/-- The offset a word carries (30_encoding.md R51). -/
def wordOffset (w : TxWord) : Nat := (w.extractLsb' 32 16).toNat

/-- The written word a word carries (30_encoding.md R51). -/
def wordData (w : TxWord) : Word := w.extractLsb' 0 32

/-- The bits `k` to `k + n - 1` of a word. -/
def fieldMask (k n : Nat) : TxWord := (BitVec.allOnes n).setWidth 64 <<< k

/-- A field of `n` bits in its place from bit `k` on. -/
def fieldAt {n : Nat} (k : Nat) (x : BitVec n) : TxWord := x.setWidth 64 <<< k

theorem and_fieldMask (w : TxWord) (k n : Nat) :
    w &&& fieldMask k n = fieldAt k (w.extractLsb' k n) := by
  apply BitVec.eq_of_getLsbD_eq
  intro i hi
  simp only [fieldMask, fieldAt, BitVec.getLsbD_and, BitVec.getLsbD_shiftLeft,
    BitVec.getLsbD_setWidth, BitVec.getLsbD_allOnes, BitVec.getLsbD_extractLsb']
  by_cases hk : i < k
  · simp [hk]
  · have hshift : k + (i - k) = i := by omega
    have hwidth : i - k < 64 := by omega
    simp [hi, hk, hshift, hwidth, Bool.and_comm]

theorem extractLsb'_fieldAt {n k : Nat} (h : k + n ≤ 64) (x : BitVec n) :
    (fieldAt k x).extractLsb' k n = x := by
  apply BitVec.eq_of_getLsbD_eq
  intro i hi
  simp [fieldAt, hi, show k + i < 64 by omega]

/-- Two words agree under the mask of a field exactly when they agree on the field. -/
theorem and_fieldMask_eq_iff {n k : Nat} (h : k + n ≤ 64) (x y : TxWord) :
    x &&& fieldMask k n = y &&& fieldMask k n ↔ x.extractLsb' k n = y.extractLsb' k n := by
  rw [and_fieldMask, and_fieldMask]
  constructor
  · intro he
    have hfield := congrArg (BitVec.extractLsb' k n) he
    rwa [extractLsb'_fieldAt h, extractLsb'_fieldAt h] at hfield
  · exact congrArg (fieldAt k)

theorem and_bitMask_eq_iff {k : Nat} (h : k < 64) (x y : TxWord) :
    x &&& fieldMask k 1 = y &&& fieldMask k 1 ↔ x.getLsbD k = y.getLsbD k := by
  have hbit (w : TxWord) : w.extractLsb' k 1 = BitVec.ofBool (w.getLsbD k) := by
    apply BitVec.eq_of_getLsbD_eq
    intro i hi
    obtain rfl : i = 0 := by omega
    simp
  rw [and_fieldMask_eq_iff (by omega), hbit, hbit]
  cases x.getLsbD k <;> cases y.getLsbD k <;> decide

/-! ### From the word to the instruction and back -/

theorem unpack_of_read {w : TxWord} (h : w.getLsbD 63 = false) :
    ∃ size, Transaction.unpack w = .rd (wordOffset w) size := by
  refine ⟨(w.extractLsb' 48 8).toNat, ?_⟩
  simp only [Transaction.unpack, h]
  rfl

theorem unpack_of_write {w : TxWord} (h : w.getLsbD 63 = true) :
    ∃ size, Transaction.unpack w = .wr (wordOffset w) size (wordData w) := by
  refine ⟨(w.extractLsb' 48 8).toNat, ?_⟩
  simp only [Transaction.unpack, h]
  rfl

/-- The address part of an encoded word: the offset in its place, and the byte count 4. -/
theorem packAddress_wordOffset (w : TxWord) :
    packAddress (wordOffset w) 4 = 0x0004000000000000#64 ||| (w &&& 0x0000FFFF00000000#64) := by
  have hmask : (0x0000FFFF00000000#64) = fieldMask 32 16 := by decide
  have hsize : (BitVec.ofNat 8 4).setWidth 64 <<< 48 = 0x0004000000000000#64 := by decide
  rw [hmask, and_fieldMask, packAddress, hsize, wordOffset, BitVec.ofNat_toNat, BitVec.setWidth_eq]
  rfl

theorem setWidth_wordData (w : TxWord) : (wordData w).setWidth 64 = w &&& 0x00000000FFFFFFFF#64 := by
  have hmask : (0x00000000FFFFFFFF#64) = fieldMask 0 32 := by decide
  rw [hmask, and_fieldMask, fieldAt, BitVec.shiftLeft_zero]
  rfl

theorem and_rwMask_of_read {w : TxWord} (h : w.getLsbD 63 = false) :
    w &&& 0x8000000000000000#64 = 0#64 :=
  (and_bitMask_eq_iff (k := 63) (by decide) w 0#64).mpr h

theorem and_rwMask_of_write {w : TxWord} (h : w.getLsbD 63 = true) :
    w &&& 0x8000000000000000#64 = 0x8000000000000000#64 :=
  (and_bitMask_eq_iff (k := 63) (by decide) w 0x8000000000000000#64).mpr h

/-- Settles O3: the instruction of a word encodes as the word's transaction with the byte count 4, and each
field of that encoding is the word under the field's mask. -/
theorem encodeOfDecodeKeepsTheReadBits : Obligations.EncodeOfDecodeKeepsTheReadBits := by
  unfold Obligations.EncodeOfDecodeKeepsTheReadBits
  intro w
  cases hrw : w.getLsbD 63 with
  | false =>
    obtain ⟨size, hunpack⟩ := unpack_of_read hrw
    have hmask : (0x8000FFFF00000000#64) = 0x8000000000000000#64 ||| 0x0000FFFF00000000#64 := by decide
    rw [decodeWord, hunpack, encode_dispatch_rd, Transaction.pack, packAddress_wordOffset,
      if_neg Bool.false_ne_true, hmask, BitVec.and_or_distrib_left, and_rwMask_of_read hrw,
      BitVec.zero_or, BitVec.or_comm]
  | true =>
    obtain ⟨size, hunpack⟩ := unpack_of_write hrw
    have hmask : (0x8000FFFFFFFFFFFF#64) =
        0x8000000000000000#64 ||| 0x0000FFFF00000000#64 ||| 0x00000000FFFFFFFF#64 := by decide
    rw [decodeWord, hunpack, encode_dispatch_wr, Transaction.pack, packAddress_wordOffset,
      setWidth_wordData, if_pos rfl, hmask, BitVec.and_or_distrib_left, BitVec.and_or_distrib_left,
      and_rwMask_of_write hrw]
    ac_rfl

end Sys2Proof
end

section
/-! The opcode table (30_encoding.md, section 4): a row selects a word exactly when the word's instruction has
the row's mnemonic. Both sides are conditions on the word's direction, offset and command bits. -/

namespace Sys2Proof

/-! ### What the masks of the rows compare -/

theorem or_and_absorb (m n : TxWord) : (m ||| n) &&& m = m := by
  apply BitVec.eq_of_getLsbD_eq
  intro i _
  rw [BitVec.getLsbD_and, BitVec.getLsbD_or]
  cases m.getLsbD i <;> simp

/-- Two words agree under two masks together exactly when they agree under each. -/
theorem and_or_eq_and_or_iff (x y m₁ m₂ : TxWord) :
    x &&& (m₁ ||| m₂) = y &&& (m₁ ||| m₂) ↔ x &&& m₁ = y &&& m₁ ∧ x &&& m₂ = y &&& m₂ := by
  constructor
  · intro h
    have absorb₁ : (m₁ ||| m₂) &&& m₁ = m₁ := or_and_absorb m₁ m₂
    have absorb₂ : (m₁ ||| m₂) &&& m₂ = m₂ := BitVec.or_comm m₁ m₂ ▸ or_and_absorb m₂ m₁
    constructor
    · rw [← absorb₁, ← BitVec.and_assoc, ← BitVec.and_assoc, h]
    · rw [← absorb₂, ← BitVec.and_assoc, ← BitVec.and_assoc, h]
  · rintro ⟨h₁, h₂⟩
    rw [BitVec.and_or_distrib_left, BitVec.and_or_distrib_left, h₁, h₂]

theorem and_rwMask_eq_iff (x y : TxWord) :
    x &&& 0x8000000000000000#64 = y &&& 0x8000000000000000#64 ↔ x.getLsbD 63 = y.getLsbD 63 :=
  and_bitMask_eq_iff (k := 63) (by decide) x y

/-- The mask of the window rows: the direction and the alignment of the offset. -/
theorem and_windowMask_eq_iff (x y : TxWord) :
    x &&& 0x8000000300000000#64 = y &&& 0x8000000300000000#64 ↔
      x.getLsbD 63 = y.getLsbD 63 ∧ wordOffset x % 4 = wordOffset y % 4 := by
  have hmask : (0x8000000300000000#64) = 0x8000000000000000#64 ||| fieldMask 32 2 := by decide
  have halign (w : TxWord) : (w.extractLsb' 32 2).toNat = wordOffset w % 4 := by
    rw [wordOffset, BitVec.extractLsb'_toNat, BitVec.extractLsb'_toNat]
    omega
  rw [hmask, and_or_eq_and_or_iff, and_rwMask_eq_iff, and_fieldMask_eq_iff (by decide),
    ← BitVec.toNat_inj, halign, halign]

/-- The mask of the register rows: the direction and the whole offset. -/
theorem and_registerMask_eq_iff (x y : TxWord) :
    x &&& 0x8000FFFF00000000#64 = y &&& 0x8000FFFF00000000#64 ↔
      x.getLsbD 63 = y.getLsbD 63 ∧ wordOffset x = wordOffset y := by
  have hmask : (0x8000FFFF00000000#64) = 0x8000000000000000#64 ||| fieldMask 32 16 := by decide
  rw [hmask, and_or_eq_and_or_iff, and_rwMask_eq_iff, and_fieldMask_eq_iff (by decide),
    ← BitVec.toNat_inj]
  rfl

/-- The mask of the START row: a register row that also looks at bit 2 of the data. -/
theorem and_startMask_eq_iff (x y : TxWord) :
    x &&& 0x8000FFFF00000004#64 = y &&& 0x8000FFFF00000004#64 ↔
      (x.getLsbD 63 = y.getLsbD 63 ∧ wordOffset x = wordOffset y) ∧ x.getLsbD 2 = y.getLsbD 2 := by
  have hmask : (0x8000FFFF00000004#64) = 0x8000FFFF00000000#64 ||| fieldMask 2 1 := by decide
  rw [hmask, and_or_eq_and_or_iff, and_registerMask_eq_iff, and_bitMask_eq_iff (by decide)]

/-- The mask of the other two Control rows: bits 3 and 2 of the data. -/
theorem and_commandMask_eq_iff (x y : TxWord) :
    x &&& 0x8000FFFF0000000C#64 = y &&& 0x8000FFFF0000000C#64 ↔
      ((x.getLsbD 63 = y.getLsbD 63 ∧ wordOffset x = wordOffset y) ∧ x.getLsbD 2 = y.getLsbD 2) ∧
        x.getLsbD 3 = y.getLsbD 3 := by
  have hmask : (0x8000FFFF0000000C#64) = 0x8000FFFF00000004#64 ||| fieldMask 3 1 := by decide
  rw [hmask, and_or_eq_and_or_iff, and_startMask_eq_iff, and_bitMask_eq_iff (by decide)]

/-! ### The rows -/

theorem pattern_under_mask : ∀ r ∈ opcodeTable, r.pattern = r.pattern &&& r.mask := by decide

theorem selects_iff_of_noWindow {r : TableRow} (hr : r ∈ opcodeTable) (h : r.window = none)
    (w : TxWord) : r.selects w = true ↔ w &&& r.mask = r.pattern &&& r.mask := by
  rw [← pattern_under_mask r hr]
  simp [TableRow.selects, h]

theorem selects_iff_of_window {r : TableRow} (hr : r ∈ opcodeTable) {lo hi : Nat}
    (h : r.window = some (lo, hi)) (w : TxWord) :
    r.selects w = true ↔ (w.getLsbD 63 = r.pattern.getLsbD 63 ∧ wordOffset w % 4 = 0) ∧
      lo ≤ wordOffset w ∧ wordOffset w < hi := by
  have hshape : ∀ r ∈ opcodeTable, r.window ≠ none →
      r.mask = 0x8000000300000000#64 ∧ 0 = wordOffset r.pattern % 4 := by decide
  obtain ⟨hmask, halign⟩ := hshape r hr (by simp [h])
  rw [halign, ← and_windowMask_eq_iff, ← hmask, ← pattern_under_mask r hr]
  simp [TableRow.selects, h, wordOffset]

theorem selects_iff_of_default {r : TableRow} (hr : r ∈ opcodeTable) (h : r.default = true)
    (w : TxWord) : r.selects w = true ↔ w.getLsbD 63 = r.pattern.getLsbD 63 := by
  have hshape : ∀ r ∈ opcodeTable, r.default = true →
      r.window = none ∧ r.mask = 0x8000000000000000#64 := by decide
  obtain ⟨hwindow, hmask⟩ := hshape r hr h
  rw [selects_iff_of_noWindow hr hwindow, hmask, and_rwMask_eq_iff]

/-- Every row compares the direction. -/
theorem direction_of_selects {r : TableRow} (hr : r ∈ opcodeTable) {w : TxWord}
    (h : r.selects w = true) : w.getLsbD 63 = r.pattern.getLsbD 63 := by
  cases hwindow : r.window with
  | some window =>
    obtain ⟨⟨hrw, -⟩, -⟩ := (selects_iff_of_window hr hwindow w).mp h
    exact hrw
  | none =>
    have hmask : ∀ r ∈ opcodeTable, r.mask.getLsbD 63 = true := by decide
    have hand := congrArg (BitVec.getLsbD · 63) ((selects_iff_of_noWindow hr hwindow w).mp h)
    simpa only [BitVec.getLsbD_and, hmask r hr, Bool.and_true] using hand

section
/-! In the direction of the word, what is left of a row's condition. -/

variable {r : TableRow} (hr : r ∈ opcodeTable) {w : TxWord}
  (hrw : w.getLsbD 63 = r.pattern.getLsbD 63)
include hr hrw

theorem selects_windowRow_iff {lo hi : Nat} (h : r.window = some (lo, hi)) :
    r.selects w = true ↔ wordOffset w % 4 = 0 ∧ lo ≤ wordOffset w ∧ wordOffset w < hi := by
  rw [selects_iff_of_window hr h, and_assoc, and_iff_right hrw]

theorem selects_registerRow_iff (h : r.window = none) (hmask : r.mask = 0x8000FFFF00000000#64) :
    r.selects w = true ↔ wordOffset w = wordOffset r.pattern := by
  rw [selects_iff_of_noWindow hr h, hmask, and_registerMask_eq_iff, and_iff_right hrw]

theorem selects_startRow_iff (h : r.window = none) (hmask : r.mask = 0x8000FFFF00000004#64) :
    r.selects w = true ↔
      wordOffset w = wordOffset r.pattern ∧ w.getLsbD 2 = r.pattern.getLsbD 2 := by
  rw [selects_iff_of_noWindow hr h, hmask, and_startMask_eq_iff, and_iff_right hrw]

theorem selects_commandRow_iff (h : r.window = none) (hmask : r.mask = 0x8000FFFF0000000C#64) :
    r.selects w = true ↔ wordOffset w = wordOffset r.pattern ∧
      w.getLsbD 2 = r.pattern.getLsbD 2 ∧ w.getLsbD 3 = r.pattern.getLsbD 3 := by
  rw [selects_iff_of_noWindow hr h, hmask, and_commandMask_eq_iff, and_assoc, and_assoc,
    and_iff_right hrw]

end

/-! ### The decoded class, by the same conditions -/

/-- The class of a word is that of the target its offset decodes to (30_encoding.md R56). -/
theorem decodeWord_of_read {w : TxWord} (h : w.getLsbD 63 = false) :
    decodeWord w = (decodeOffset (wordOffset w)).readClass (wordOffset w) := by
  obtain ⟨size, hunpack⟩ := unpack_of_read h
  rw [decodeWord, hunpack, dispatch_rd_of_decodeOffset rfl]

theorem decodeWord_of_write {w : TxWord} (h : w.getLsbD 63 = true) :
    decodeWord w = (decodeOffset (wordOffset w)).writeClass (wordOffset w) (wordData w) := by
  obtain ⟨size, hunpack⟩ := unpack_of_write h
  rw [decodeWord, hunpack, dispatch_wr_of_decodeOffset rfl]

theorem getLsbD_wordData (w : TxWord) {k : Nat} (h : k < 32) :
    (wordData w).getLsbD k = w.getLsbD k := by
  simp [wordData, h]

/-- The mnemonics of the reads, by the offset. -/
theorem readClass_mnemonic_iff {g : Target} {off : Nat} (h : g.occupies off) :
    ((g.readClass off).mnemonic = "RD.A" ↔ off % 4 = 0 ∧ 0 ≤ off ∧ off < 0x190) ∧
    ((g.readClass off).mnemonic = "RD.B" ↔ off % 4 = 0 ∧ 0x200 ≤ off ∧ off < 0x228) ∧
    ((g.readClass off).mnemonic = "RD.C" ↔ off % 4 = 0 ∧ 0x300 ≤ off ∧ off < 0x328) ∧
    ((g.readClass off).mnemonic = "RD.CTRL" ↔ off = 0x400) ∧
    ((g.readClass off).mnemonic = "RD.SIZE" ↔ off = 0x410) ∧
    ((g.readClass off).mnemonic = "RD.STATUS" ↔ off = 0x420) ∧
    ((g.readClass off).mnemonic = "RD.ID" ↔ off = 0x430) := by
  cases g with
  | invalid =>
    rw [Target.occupies, isHole_iff] at h
    simp only [Target.readClass, Instr.mnemonic, String.reduceEq, false_iff]
    omega
  | matrixA i | matrixB i | matrixC i | control | size | status | id =>
    simp only [Target.occupies] at h
    simp only [Target.readClass, Instr.mnemonic, String.reduceEq, false_iff, true_iff]
    omega

/-- The mnemonics of the writes, by the offset and the command bits. -/
theorem writeClass_mnemonic_iff {g : Target} {off : Nat} (h : g.occupies off) (v : Word) :
    ((g.writeClass off v).mnemonic = "WR.A" ↔ off % 4 = 0 ∧ 0 ≤ off ∧ off < 0x190) ∧
    ((g.writeClass off v).mnemonic = "WR.B" ↔ off % 4 = 0 ∧ 0x200 ≤ off ∧ off < 0x228) ∧
    ((g.writeClass off v).mnemonic = "WR.C" ↔ off % 4 = 0 ∧ 0x300 ≤ off ∧ off < 0x328) ∧
    ((g.writeClass off v).mnemonic = "WR.SIZE" ↔ off = 0x410) ∧
    ((g.writeClass off v).mnemonic = "WR.STATUS" ↔ off = 0x420) ∧
    ((g.writeClass off v).mnemonic = "WR.ID" ↔ off = 0x430) ∧
    ((g.writeClass off v).mnemonic = "WR.CTRL.START" ↔ off = 0x400 ∧ v.getLsbD 2 = true) ∧
    ((g.writeClass off v).mnemonic = "WR.CTRL.RESET" ↔
      off = 0x400 ∧ v.getLsbD 2 = false ∧ v.getLsbD 3 = true) ∧
    ((g.writeClass off v).mnemonic = "WR.CTRL.CFG" ↔
      off = 0x400 ∧ v.getLsbD 2 = false ∧ v.getLsbD 3 = false) := by
  cases g with
  | control =>
    simp only [Target.occupies] at h
    simp only [Target.writeClass, dispatchControl]
    split_ifs <;> simp_all [Instr.mnemonic]
  | invalid =>
    rw [Target.occupies, isHole_iff] at h
    simp only [Target.writeClass, Instr.mnemonic, String.reduceEq, false_iff]
    omega
  | matrixA i | matrixB i | matrixC i | size | status | id =>
    simp only [Target.occupies] at h
    simp only [Target.writeClass, Instr.mnemonic, String.reduceEq, false_iff, true_iff]
    omega

/-! ### Each row against the decoded class -/

theorem readRow_selects_iff {w : TxWord} (h : w.getLsbD 63 = false) :
    ∀ r ∈ readRows, r.default = false →
      (r.selects w = true ↔ (decodeWord w).mnemonic = r.mnemonic) := by
  obtain ⟨hA, hB, hC, hctrl, hsize, hstatus, hid⟩ :=
    readClass_mnemonic_iff (decodeOffset_occupies (wordOffset w))
  rw [decodeWord_of_read h]
  simp only [readRows, List.forall_mem_cons, List.not_mem_nil, false_imp_iff, implies_true, and_true]
  refine ⟨fun _ => ?_, fun _ => ?_, fun _ => ?_, fun _ => ?_, fun _ => ?_, fun _ => ?_, fun _ => ?_,
    nofun⟩
  · exact (selects_windowRow_iff (by decide) h rfl).trans hA.symm
  · exact (selects_windowRow_iff (by decide) h rfl).trans hB.symm
  · exact (selects_windowRow_iff (by decide) h rfl).trans hC.symm
  · exact (selects_registerRow_iff (by decide) h rfl rfl).trans hctrl.symm
  · exact (selects_registerRow_iff (by decide) h rfl rfl).trans hsize.symm
  · exact (selects_registerRow_iff (by decide) h rfl rfl).trans hstatus.symm
  · exact (selects_registerRow_iff (by decide) h rfl rfl).trans hid.symm

theorem writeRow_selects_iff {w : TxWord} (h : w.getLsbD 63 = true) :
    ∀ r ∈ writeRows, r.default = false →
      (r.selects w = true ↔ (decodeWord w).mnemonic = r.mnemonic) := by
  obtain ⟨hA, hB, hC, hsize, hstatus, hid, hstart, hreset, hcfg⟩ :=
    writeClass_mnemonic_iff (decodeOffset_occupies (wordOffset w)) (wordData w)
  simp only [getLsbD_wordData w (show 2 < 32 by decide), getLsbD_wordData w (show 3 < 32 by decide)]
    at hstart hreset hcfg
  rw [decodeWord_of_write h]
  simp only [writeRows, List.forall_mem_cons, List.not_mem_nil, false_imp_iff, implies_true, and_true]
  refine ⟨fun _ => ?_, fun _ => ?_, fun _ => ?_, fun _ => ?_, fun _ => ?_, fun _ => ?_, nofun,
    fun _ => ?_, fun _ => ?_, fun _ => ?_⟩
  · exact (selects_windowRow_iff (by decide) h rfl).trans hA.symm
  · exact (selects_windowRow_iff (by decide) h rfl).trans hB.symm
  · exact (selects_windowRow_iff (by decide) h rfl).trans hC.symm
  · exact (selects_registerRow_iff (by decide) h rfl rfl).trans hsize.symm
  · exact (selects_registerRow_iff (by decide) h rfl rfl).trans hstatus.symm
  · exact (selects_registerRow_iff (by decide) h rfl rfl).trans hid.symm
  · exact (selects_startRow_iff (by decide) h rfl rfl).trans hstart.symm
  · exact (selects_commandRow_iff (by decide) h rfl rfl).trans hreset.symm
  · exact (selects_commandRow_iff (by decide) h rfl rfl).trans hcfg.symm

/-- The direction of an instruction, as bit 63 of its words. -/
def Instr.rw : Instr → Bool
  | .rdA _ | .rdB _ | .rdC _ | .rdCtrl | .rdSize | .rdStatus | .rdId | .rdInv _ => false
  | .wrA _ _ | .wrB _ _ | .wrC _ _ | .wrSize _ | .wrStatus _ | .wrId _ | .wrInv _ _ => true
  | .wrCtrlStart _ | .wrCtrlReset _ | .wrCtrlCfg _ => true

theorem decodeWord_rw (w : TxWord) : (decodeWord w).rw = w.getLsbD 63 := by
  cases h : w.getLsbD 63 with
  | false =>
    rw [decodeWord_of_read h]
    cases decodeOffset (wordOffset w) <;> rfl
  | true =>
    rw [decodeWord_of_write h]
    cases decodeOffset (wordOffset w) with
    | control =>
      simp only [Target.writeClass, dispatchControl]
      split_ifs <;> rfl
    | _ => rfl

/-- The choice of 30_encoding.md R58: the default rows where no other row is found. -/
def chooseRows (found defaults : List TableRow) : List TableRow :=
  match found with
  | [] => defaults
  | found => found

/-- The rows an instruction claims: those of its mnemonic, or the default row of its direction. -/
def Instr.rows (i : Instr) : List TableRow :=
  chooseRows (opcodeTable.filter fun r => !r.default && r.mnemonic == i.mnemonic)
    (opcodeTable.filter fun r => r.default && r.pattern.getLsbD 63 == i.rw)

theorem Instr.rows_mnemonic (i : Instr) : i.rows.map TableRow.mnemonic = [i.mnemonic] := by
  cases i <;> rfl

theorem row_direction_of_mnemonic (i : Instr) :
    ∀ r ∈ opcodeTable, i.mnemonic = r.mnemonic → r.pattern.getLsbD 63 = i.rw := by
  cases i <;> simp only [Instr.mnemonic, Instr.rw] <;> decide

theorem selects_iff_mnemonic (w : TxWord) {r : TableRow} (hr : r ∈ opcodeTable)
    (hdefault : r.default = false) :
    r.selects w = true ↔ (decodeWord w).mnemonic = r.mnemonic := by
  have hread : ∀ r ∈ readRows, r.pattern.getLsbD 63 = false := by decide
  have hwrite : ∀ r ∈ writeRows, r.pattern.getLsbD 63 = true := by decide
  by_cases hrw : w.getLsbD 63 = r.pattern.getLsbD 63
  · cases List.mem_append.mp hr with
    | inl hr => exact readRow_selects_iff (hrw.trans (hread r hr)) r hr hdefault
    | inr hr => exact writeRow_selects_iff (hrw.trans (hwrite r hr)) r hr hdefault
  · refine iff_of_false (fun h => hrw (direction_of_selects hr h)) (fun h => hrw ?_)
    rw [row_direction_of_mnemonic _ r hr h, decodeWord_rw]

theorem rowsOf_eq_rows (w : TxWord) : rowsOf w = (decodeWord w).rows := by
  have hchosen : opcodeTable.filter (fun r => !r.default && r.selects w) =
      opcodeTable.filter (fun r => !r.default && r.mnemonic == (decodeWord w).mnemonic) := by
    refine List.filter_congr fun r hr => ?_
    cases hdefault : r.default with
    | true => rfl
    | false =>
      rw [Bool.eq_iff_iff]
      simp only [Bool.not_false, Bool.true_and, beq_iff_eq]
      rw [selects_iff_mnemonic w hr hdefault, eq_comm]
  have hdefaults : opcodeTable.filter (fun r => r.default && r.selects w) =
      opcodeTable.filter (fun r => r.default && r.pattern.getLsbD 63 == (decodeWord w).rw) := by
    refine List.filter_congr fun r hr => ?_
    cases hdefault : r.default with
    | false => rfl
    | true =>
      rw [Bool.eq_iff_iff, decodeWord_rw]
      simp only [Bool.true_and, beq_iff_eq]
      rw [selects_iff_of_default hr hdefault, eq_comm]
  exact congrArg₂ chooseRows hchosen hdefaults

/-- Settles O4: the rows that claim a word are those of its instruction, which are one. -/
theorem opcodeTableRowsPartitionTheWords : Obligations.OpcodeTableRowsPartitionTheWords := by
  unfold Obligations.OpcodeTableRowsPartitionTheWords
  intro w
  rw [rowsOf_eq_rows, Instr.rows_mnemonic]

end Sys2Proof
end

section
/-! Dispatch (30_encoding.md R56): the class of every transaction, and that its operands belong to it. -/

namespace Sys2Proof

theorem readClass_wellFormed {off : Nat} {g : Target} (h : g.occupies off) :
    (g.readClass off).wellFormed = true := by
  cases g with
  | invalid => exact h
  | matrixA i | matrixB i | matrixC i | control | size | status | id => rfl

theorem dispatchControl_wellFormed (v : Word) : (dispatchControl v).wellFormed = true := by
  cases h2 : v.getLsbD 2 with
  | true => rw [dispatchControl_of_start h2, Instr.wellFormed, h2]
  | false =>
    cases h3 : v.getLsbD 3 with
    | true => rw [dispatchControl_of_reset h3 h2, Instr.wellFormed, h2, h3]; rfl
    | false => rw [dispatchControl_of_config h3 h2, Instr.wellFormed, h2, h3]; rfl

theorem writeClass_wellFormed {off : Nat} {g : Target} (h : g.occupies off) (v : Word) :
    (g.writeClass off v).wellFormed = true := by
  cases g with
  | invalid => exact h
  | control => exact dispatchControl_wellFormed v
  | matrixA i | matrixB i | matrixC i | size | status | id => rfl

/-- Settles O6: the target an offset decodes to is one it belongs to. -/
theorem everyTransactionDispatchesWellFormed : Obligations.EveryTransactionDispatchesWellFormed := by
  unfold Obligations.EveryTransactionDispatchesWellFormed
  intro t
  cases t with
  | rd off size =>
    rw [dispatch_rd_of_decodeOffset rfl]
    exact readClass_wellFormed (decodeOffset_occupies off)
  | wr off size v =>
    rw [dispatch_wr_of_decodeOffset rfl]
    exact writeClass_wellFormed (decodeOffset_occupies off) v

/-- A word decodes by its direction, its offset and its data alone. -/
theorem decodeWord_congr {w w' : TxWord} (hrw : w.getLsbD 63 = w'.getLsbD 63)
    (hoff : wordOffset w = wordOffset w') (hdata : wordData w = wordData w') :
    decodeWord w = decodeWord w' := by
  cases h : w.getLsbD 63 with
  | false => rw [decodeWord_of_read h, decodeWord_of_read (hrw ▸ h), hoff]
  | true => rw [decodeWord_of_write h, decodeWord_of_write (hrw ▸ h), hoff, hdata]

/-- Settles O5: each clause of the table is the class of its target; for Control, by its command bits. -/
theorem eachTransactionHasTheClassOfItsTarget :
    Obligations.EachTransactionHasTheClassOfItsTarget := by
  unfold Obligations.EachTransactionHasTheClassOfItsTarget
  refine ⟨fun off size => ?_, fun off size v => ?_, fun w w' hrw hoff hdata => ?_⟩
  · have hread {g : Target} (h : decodeOffset off = g) : dispatch (.rd off size) = g.readClass off :=
      dispatch_rd_of_decodeOffset h size
    exact ⟨fun _ => hread, fun _ => hread, fun _ => hread, hread, hread, hread, hread, hread⟩
  · have hwrite {g : Target} (h : decodeOffset off = g) :
        dispatch (.wr off size v) = g.writeClass off v :=
      dispatch_wr_of_decodeOffset h size v
    exact ⟨fun _ => hwrite, fun _ => hwrite, fun _ => hwrite, hwrite, hwrite, hwrite, hwrite,
      fun h h2 => (hwrite h).trans (dispatchControl_of_start h2),
      fun h h3 h2 => (hwrite h).trans (dispatchControl_of_reset h3 h2),
      fun h h3 h2 => (hwrite h).trans (dispatchControl_of_config h3 h2)⟩
  · exact decodeWord_congr hrw (congrArg BitVec.toNat hoff) hdata

/-- Settles O1: the twenty words are closed, so the decoder runs on each. -/
theorem listedWordsDecodeToTheirClass : Obligations.ListedWordsDecodeToTheirClass := by
  unfold Obligations.ListedWordsDecodeToTheirClass
  decide

end Sys2Proof
end

section
/-! What a transaction does, as one function of the state: the read through the disable gate
(40_register_reads.md), the store (41_register_writes.md), the Control write (42_control_commands.md). -/

namespace Sys2Proof.Machine

/-! ### Reads -/

/-- What a read of a target returns: its word on an enabled device, else the answer of the gate
(40_register_reads.md R70). -/
def State.readAnswer (s : State) (g : Target) : Word :=
  if s.enabled then s.wordAt g
  else if g = .invalid then s.config.disabledInvalidRead
  else disabledWord

/-- The level of the line after a read of a target: only a Status read can take it down (R76). -/
def State.lineAfterRead (s : State) (g : Target) : Bool :=
  if g = .status ∧ s.statusReadAcks then false else s.irq

/-- The state a read of a target leaves. -/
def State.read (g : Target) (s : State) : State :=
  { s with returned := s.returned ++ [s.readAnswer g], irq := s.lineAfterRead g }

theorem lineAfterRead_of_ne_status (s : State) {g : Target} (hg : g ≠ .status) :
    s.lineAfterRead g = s.irq :=
  if_neg fun h => hg h.1

theorem exec_readClass (off : Nat) (g : Target) (s : State) :
    exec (g.readClass off) s = .next (s.read g) := by
  by_cases hg : g = .status
  · subst hg
    show Host.Outcome.next (if s.statusReadAcks then _ else _) = _
    rw [State.read, State.lineAfterRead]
    cases s.statusReadAcks <;> rfl
  · rw [State.read, lineAfterRead_of_ne_status s hg]
    cases g with
    | status => exact absurd rfl hg
    | matrixA i | matrixB i | matrixC i | control | size | id | invalid => rfl

/-! ### Control writes -/

theorem startAllowed_iff (v : Word) (s : State) :
    s.startAllowed v = true ↔ v.getLsbD 0 = true ∨ s.config.startRequiresEnable = false := by
  rw [State.startAllowed, enableBit, Bool.or_eq_true, Bool.not_eq_true']

theorem exec_wrCtrlStart (v : Word) (s : State) :
    exec (.wrCtrlStart v) s =
      .next (if s.startAllowed v then (s.storeCtrl v).start v else s.storeCtrl v) := rfl

/-- The state a Control write leaves: the value stored, then START_OP, else RESET_STAT
(42_control_commands.md R101). -/
def State.control (v : Word) (s : State) : State :=
  if v.getLsbD 2 then if s.startAllowed v then (s.storeCtrl v).start v else s.storeCtrl v
  else if v.getLsbD 3 then (s.storeCtrl v).resetStat
  else s.storeCtrl v

theorem exec_dispatchControl (v : Word) (s : State) :
    exec (dispatchControl v) s = .next (s.control v) := by
  unfold dispatchControl State.control
  cases v.getLsbD 2 with
  | true => exact exec_wrCtrlStart v s
  | false => cases v.getLsbD 3 <;> rfl

section
variable {v : Word} (s : State)

theorem control_of_start (h2 : v.getLsbD 2 = true) (h : s.startAllowed v = true) :
    s.control v = (s.storeCtrl v).start v := by
  rw [State.control, if_pos h2, if_pos h]

theorem control_of_ignored (h2 : v.getLsbD 2 = true) (h : s.startAllowed v = false) :
    s.control v = s.storeCtrl v := by
  rw [State.control, if_pos h2, h, if_neg Bool.false_ne_true]

theorem control_of_reset (h2 : v.getLsbD 2 = false) (h3 : v.getLsbD 3 = true) :
    s.control v = (s.storeCtrl v).resetStat := by
  rw [State.control, h2, if_neg Bool.false_ne_true, if_pos h3]

theorem control_of_config (h2 : v.getLsbD 2 = false) (h3 : v.getLsbD 3 = false) :
    s.control v = s.storeCtrl v := by
  rw [State.control, h2, h3, if_neg Bool.false_ne_true, if_neg Bool.false_ne_true]

/-- Every Control write is one of four: a START that runs, an ignored START, a RESET, or a store alone. -/
theorem control_cases (v : Word) :
    (v.getLsbD 2 = true ∧ s.startAllowed v = true ∧ s.control v = (s.storeCtrl v).start v) ∨
    (v.getLsbD 2 = true ∧ s.startAllowed v = false ∧ s.control v = s.storeCtrl v) ∨
    (v.getLsbD 2 = false ∧ v.getLsbD 3 = true ∧ s.control v = (s.storeCtrl v).resetStat) ∨
    (v.getLsbD 2 = false ∧ v.getLsbD 3 = false ∧ s.control v = s.storeCtrl v) := by
  cases h2 : v.getLsbD 2 with
  | true =>
    cases h : s.startAllowed v with
    | true => exact .inl ⟨rfl, rfl, control_of_start s h2 h⟩
    | false => exact .inr (.inl ⟨rfl, rfl, control_of_ignored s h2 h⟩)
  | false =>
    cases h3 : v.getLsbD 3 with
    | true => exact .inr (.inr (.inl ⟨rfl, rfl, control_of_reset s h2 h3⟩))
    | false => exact .inr (.inr (.inr ⟨rfl, rfl, control_of_config s h2 h3⟩))

end

/-- What no Control write changes. -/
@[simp] theorem control_frame (v : Word) (s : State) :
    (s.control v).A = s.A ∧ (s.control v).B = s.B ∧ (s.control v).size = s.size ∧
    (s.control v).config = s.config ∧ (s.control v).pending = s.pending ∧
    (s.control v).returned = s.returned := by
  obtain ⟨-, -, h⟩ | ⟨-, -, h⟩ | ⟨-, -, h⟩ | ⟨-, -, h⟩ := control_cases s v <;> rw [h] <;> simp

/-- Whatever the command, the stored word is that of the value. -/
@[simp] theorem State.control_ctrl (v : Word) (s : State) :
    (s.control v).ctrl = storedControl s.config v := by
  obtain ⟨-, -, h⟩ | ⟨-, -, h⟩ | ⟨-, -, h⟩ | ⟨-, -, h⟩ := control_cases s v <;> rw [h] <;> simp

/-- Without START_OP no cell of `C` is written. -/
theorem control_C_of_noStart {v : Word} (h2 : v.getLsbD 2 = false) (s : State) :
    (s.control v).C = s.C := by
  cases h3 : v.getLsbD 3 with
  | true => rw [control_of_reset s h2 h3, State.resetStat_C, State.storeCtrl_C]
  | false => rw [control_of_config s h2 h3, State.storeCtrl_C]

/-! ### Stores -/

section
variable (v : Word) (s : State)

theorem storeAt_irq (g : Target) : (s.storeAt v g).irq = s.irq := by
  cases g <;> rfl

theorem storeAt_status (g : Target) : (s.storeAt v g).status = s.status := by
  cases g <;> rfl

theorem storeAt_config (g : Target) : (s.storeAt v g).config = s.config := by
  cases g <;> rfl

theorem storeAt_pending (g : Target) : (s.storeAt v g).pending = s.pending := by
  cases g <;> rfl

theorem storeAt_C (g : Target) : (s.storeAt v g).C = s.C := by
  cases g <;> rfl

variable {g : Target}

theorem storeAt_A (hg : ∀ i, g ≠ .matrixA i) : (s.storeAt v g).A = s.A := by
  cases g with
  | matrixA i => exact absurd rfl (hg i)
  | _ => rfl

theorem storeAt_B (hg : ∀ i, g ≠ .matrixB i) : (s.storeAt v g).B = s.B := by
  cases g with
  | matrixB i => exact absurd rfl (hg i)
  | _ => rfl

theorem storeAt_size (hg : g ≠ .size) : (s.storeAt v g).size = s.size := by
  cases g with
  | size => exact absurd rfl hg
  | _ => rfl

/-- A store changes the word at no other target (10_state.md, section 1). -/
theorem storeAt_wordAt {k : Target} (hk : k ≠ g) : (s.storeAt v g).wordAt k = s.wordAt k := by
  cases g with
  | matrixA i =>
    cases k with
    | matrixA j =>
      have hij : i.val ≠ j.val := fun h => hk (congrArg _ (Fin.ext h.symm))
      exact Vector.getElem_set_ne i.isLt j.isLt hij
    | _ => rfl
  | matrixB i =>
    cases k with
    | matrixB j =>
      have hij : i.val ≠ j.val := fun h => hk (congrArg _ (Fin.ext h.symm))
      exact Vector.getElem_set_ne i.isLt j.isLt hij
    | _ => rfl
  | size =>
    cases k with
    | size => exact absurd rfl hk
    | _ => rfl
  | control =>
    cases k with
    | control => exact absurd rfl hk
    | _ => rfl
  | matrixC i | status | id | invalid => rfl

theorem storeA_wordAt (i : Fin 100) : (s.storeAt v (.matrixA i)).wordAt (.matrixA i) = v :=
  Vector.getElem_set_self _

theorem storeB_wordAt (i : Fin 10) : (s.storeAt v (.matrixB i)).wordAt (.matrixB i) = v :=
  Vector.getElem_set_self _

end

/-! ### One transaction -/

/-- The state a write leaves. -/
def State.write (v : Word) (g : Target) (s : State) : State :=
  if g = .control then s.control v else s.storeAt v g

theorem write_of_ne_control (v : Word) (s : State) {g : Target} (hg : g ≠ .control) :
    s.write v g = s.storeAt v g :=
  if_neg hg

theorem exec_writeClass_eq (off : Nat) (v : Word) (g : Target) (s : State) :
    exec (g.writeClass off v) s = .next (s.write v g) := by
  by_cases hg : g = .control
  · subst hg
    exact exec_dispatchControl v s
  · rw [write_of_ne_control v s hg, exec_writeClass off v s hg]

/-- The state a transaction leaves (20_memory.md R37). -/
def State.after (s : State) : Transaction → State
  | .rd off _ => s.read (decodeOffset off)
  | .wr off _ v => s.write v (decodeOffset off)

theorem exec_dispatch (x : Transaction) (s : State) : exec (dispatch x) s = .next (s.after x) := by
  cases x with
  | rd off size => rw [dispatch_rd_of_decodeOffset rfl, exec_readClass, State.after]
  | wr off size v => rw [dispatch_wr_of_decodeOffset rfl, exec_writeClass_eq, State.after]

theorem step_eq_after {s : State} {x : Transaction} {rest : List Transaction}
    (h : s.pending = x :: rest) : step s = .next (State.after { s with pending := rest } x) := by
  rw [step_cons h, exec_dispatch]

theorem after_withPending (s : State) (x : Transaction) (later : List Transaction) :
    State.after { s with pending := later } x = { s.after x with pending := later } :=
  Host.Outcome.next.inj
    ((exec_dispatch x _).symm.trans (exec_withPending (exec_dispatch x s) later))

theorem after_rd {off : Nat} {g : Target} (h : decodeOffset off = g) (s : State) (size : Nat) :
    s.after (.rd off size) = s.read g := by
  rw [State.after, h]

theorem after_wr {off : Nat} {g : Target} (h : decodeOffset off = g) (s : State) (size : Nat)
    (v : Word) : s.after (.wr off size v) = s.write v g := by
  rw [State.after, h]

end Sys2Proof.Machine
end

section
/-! The statements about one read (40_register_reads.md). -/

namespace Sys2Proof.Machine

/-! ### The gate closed (40_register_reads.md R70) -/

theorem readAnswer_of_disabled {s : State} (h : s.enabled = false) (g : Target) :
    s.readAnswer g = if g = .invalid then s.config.disabledInvalidRead else disabledWord := by
  rw [State.readAnswer, h, if_neg Bool.false_ne_true]

theorem statusReadAcks_of_disabled {s : State} (h : s.enabled = false) :
    s.statusReadAcks = s.config.statusReadAcksWhenDisabled := by
  rw [State.statusReadAcks, h, Bool.false_or]

/-- A gated read of a register but Status returns `0` and does nothing else. -/
theorem exec_readClass_of_disabled {s : State} (h : s.enabled = false) (off : Nat) {g : Target}
    (hstatus : g ≠ .status) (hinvalid : g ≠ .invalid) :
    exec (g.readClass off) s = .next (s.answer disabledWord) := by
  rw [exec_readClass, State.read, readAnswer_of_disabled h, if_neg hinvalid,
    lineAfterRead_of_ne_status s hstatus]
  rfl

theorem exec_rdInv_of_disabled {s : State} (h : s.enabled = false) (off : Nat) :
    exec (.rdInv off) s = .next (s.answer s.config.disabledInvalidRead) :=
  congrArg Host.Outcome.next (gatedRead_of_disabled h _ _)

/-- A gated Status read acknowledges where the parameter says so (D12). -/
theorem exec_rdStatus_of_disabled {s : State} (h : s.enabled = false) :
    exec .rdStatus s = .next { s.answer disabledWord with
      irq := s.irq && !s.config.statusReadAcksWhenDisabled } := by
  simp only [exec, execRdStatus, gatedRead_of_disabled h, statusReadAcks_of_disabled h]
  cases s.config.statusReadAcksWhenDisabled with
  | true => rw [Bool.not_true, Bool.and_false]; rfl
  | false => rw [Bool.not_false, Bool.and_true]; rfl

/-- Settles O15: the gated reads, Status and `Invalid` by their parameters. -/
theorem disabledReadsAreGated : Obligations.DisabledReadsAreGated := by
  unfold Obligations.DisabledReadsAreGated
  intro s h
  exact ⟨fun i => exec_readClass_of_disabled h (cellOffsetA i) (g := .matrixA i) nofun nofun,
    fun i => exec_readClass_of_disabled h (cellOffsetB i) (g := .matrixB i) nofun nofun,
    fun i => exec_readClass_of_disabled h (cellOffsetC i) (g := .matrixC i) nofun nofun,
    exec_readClass_of_disabled h 0x400 (g := .control) nofun nofun,
    exec_readClass_of_disabled h 0x410 (g := .size) nofun nofun,
    exec_readClass_of_disabled h 0x430 (g := .id) nofun nofun,
    exec_rdStatus_of_disabled h, exec_rdInv_of_disabled h⟩

/-- With the decided parameters the gate answers `0` for `Invalid` too (D11). -/
theorem readAnswer_of_decided {s : State} (hconfig : s.config = Config.decided)
    (h : s.enabled = false) (g : Target) : s.readAnswer g = 0#32 := by
  rw [readAnswer_of_disabled h, hconfig]
  exact ite_self disabledWord

/-- With the decided parameters a gated read leaves the line, at Status too (D12). -/
theorem lineAfterRead_of_decided {s : State} (hconfig : s.config = Config.decided)
    (h : s.enabled = false) (g : Target) : s.lineAfterRead g = s.irq := by
  have hkeep : s.statusReadAcks = false := by
    rw [statusReadAcks_of_disabled h, hconfig]
    rfl
  rw [State.lineAfterRead, hkeep]
  simp

/-- Settles O16: the answer and the line of a gated read, with the parameters at their decided values. -/
theorem decidedDisabledReadReturnsZero : Obligations.DecidedDisabledReadReturnsZero := by
  unfold Obligations.DecidedDisabledReadReturnsZero
  intro s off size rest hconfig h
  let r : State := { s with pending := rest }
  have hanswer : r.readAnswer (decodeOffset off) = 0#32 := readAnswer_of_decided hconfig h _
  have hline : r.lineAfterRead (decodeOffset off) = r.irq := lineAfterRead_of_decided hconfig h _
  rw [step_rd rfl, exec_readClass]
  show Host.Outcome.next (r.read (decodeOffset off)) = _
  rw [State.read, hanswer, hline]

/-- Settles O17: a read is one word more and a level of the line, which only a Status read can take down. -/
theorem readsChangeAtMostTheLine : Obligations.ReadsChangeAtMostTheLine := by
  unfold Obligations.ReadsChangeAtMostTheLine
  intro s off size rest hpending
  let r : State := { s with pending := rest }
  refine ⟨r.readAnswer (decodeOffset off), r.lineAfterRead (decodeOffset off), ?_, fun h => ?_,
    fun hoff => ?_⟩
  · rw [step_rd hpending, exec_readClass]
    rfl
  · rw [State.lineAfterRead] at h
    split_ifs at h
    exact h
  · have hg : decodeOffset off ≠ .status := fun h => hoff ((decodeOffset_eq_iff off .status).mp h)
    exact lineAfterRead_of_ne_status r hg

/-- Settles O13: Id is a live read like the others, of the constant word. -/
theorem enabledIdReadReturnsTheConstant : Obligations.EnabledIdReadReturnsTheConstant := by
  unfold Obligations.EnabledIdReadReturnsTheConstant
  exact fun s h => exec_readClass_of_enabled h 0x430 (g := .id) nofun

theorem step_statusRead {s : State} (h : s.enabled = true) {size : Nat} {rest : List Transaction}
    (hpending : s.pending = .rd 0x420 size :: rest) :
    step s = .next (State.answer (statusWord s.status) { s with pending := rest }).deassertIrq := by
  rw [step_rd hpending, decodeOffset_status]
  exact exec_rdStatus_of_enabled h

/-- Settles O39: the first read leaves the status bits and the device enabled for the second. -/
theorem secondStatusReadReportsTheSameBits : Obligations.SecondStatusReadReportsTheSameBits := by
  unfold Obligations.SecondStatusReadReportsTheSameBits
  intro s z z' h hpending
  let u : State := (State.answer (statusWord s.status) { s with pending := [.rd 0x420 z'] }).deassertIrq
  have hu : step s = .next u := step_statusRead h hpending
  refine ⟨u, _, hu, step_statusRead (s := u) h rfl, rfl, rfl, rfl, ?_⟩
  simp [u, statusWord]

end Sys2Proof.Machine
end

section
/-! The statements about one write at a target other than Control (41_register_writes.md). -/

namespace Sys2Proof.Machine

/-- Settles O20: Status is a target whose store is dropped. -/
theorem statusWritesAreDropped : Obligations.StatusWritesAreDropped := by
  unfold Obligations.StatusWritesAreDropped
  exact fun s v => exec_writeClass 0x420 v s (g := .status) nofun

/-- Settles O21: the stored size is the clamp of the value, a minimum. -/
theorem sizeWritesClampAtTen : Obligations.SizeWritesClampAtTen := by
  unfold Obligations.SizeWritesClampAtTen
  intro s v
  refine ⟨clampSize v, ?_, exec_writeClass 0x410 v s (g := .size) nofun⟩
  rw [clampSize_val]
  split_ifs <;> omega

/-- Settles O23: a write at another offset than Control's is the store at its target. -/
theorem storesChangeOnlyTheirTarget : Obligations.StoresChangeOnlyTheirTarget := by
  unfold Obligations.StoresChangeOnlyTheirTarget
  intro s off size v rest hoff hpending
  let r : State := { s with pending := rest }
  have hg : decodeOffset off ≠ .control := fun h => hoff ((decodeOffset_eq_iff off .control).mp h)
  refine ⟨r.storeAt v (decodeOffset off), ?_, fun g hne => storeAt_wordAt v r hne, fun i hi => ?_,
    fun i hi => ?_, storeAt_irq v r _, storeAt_config v r _, storeAt_pending v r _,
    storeAt_returned v r _⟩
  · rw [step_wr hpending, exec_writeClass off v r hg]
  · rw [hi, storeA_wordAt]
  · rw [hi, storeB_wordAt]

/-- Settles O9: the class of a transaction is that of its target, whatever the byte count. -/
theorem theByteCountIsIgnored : Obligations.TheByteCountIsIgnored := by
  unfold Obligations.TheByteCountIsIgnored
  intro s off size v rest
  constructor
  · rw [step_rd rfl, step_rd rfl]
  · rw [step_wr rfl, step_wr rfl]

theorem withFetchWord_pending (s : State) (w : TxWord) :
    (s.withFetchWord 64 w.toNat).pending = Transaction.unpack w :: s.pending := by
  rw [State.withFetchWord, Nat.mod_eq_of_lt w.isLt, BitVec.ofNat_toNat, BitVec.setWidth_eq]

/-- Settles O8: the step on a given transaction, on a word, and on an empty list. -/
theorem stepRunsTheNextTransaction : Obligations.StepRunsTheNextTransaction := by
  unfold Obligations.StepRunsTheNextTransaction
  refine ⟨fun s t rest => step_cons, fun s w => ?_, fun s => step_nil⟩
  rw [step_cons (withFetchWord_pending s w)]
  rfl

end Sys2Proof.Machine
end

section
/-! The statements about one Control write (42_control_commands.md). -/

namespace Sys2Proof.Machine

/-- A step on a write of Control. -/
theorem step_controlWrite {s : State} {size : Nat} {v : Word} {rest : List Transaction}
    (h : s.pending = .wr 0x400 size v :: rest) :
    step s = .next (State.control v { s with pending := rest }) := by
  rw [step_wr h, decodeOffset_control]
  exact exec_dispatchControl v _

theorem startAllowed_eq_false_iff (v : Word) (s : State) :
    s.startAllowed v = false ↔ v.getLsbD 0 = false ∧ s.config.startRequiresEnable = true := by
  rw [State.startAllowed, enableBit, Bool.or_eq_false_iff, Bool.not_eq_false']

/-- `START()` on the state with the value stored, in full. -/
theorem start_storeCtrl (v : Word) (s : State) :
    (s.storeCtrl v).start v =
      { s with ctrl := v &&& s.config.ctrlStoreMask, C := s.multiply.C, status := 0b11#2,
               irq := s.irq || irqEnableBit v } := by
  rw [start_eq]
  rfl

/-- Settles O25: the four Control writes, each in its branch of the pseudocode. -/
theorem controlWriteStoresThenStartsElseResets :
    Obligations.ControlWriteStoresThenStartsElseResets := by
  unfold Obligations.ControlWriteStoresThenStartsElseResets
  intro s size v rest
  rw [step_controlWrite rfl]
  let r : State := { s with pending := rest }
  have hallowed := startAllowed_iff v r
  obtain ⟨h2, h, hcontrol⟩ | ⟨h2, h, hcontrol⟩ | ⟨h2, h3, hcontrol⟩ | ⟨h2, h3, hcontrol⟩ :=
    control_cases r v
  · rw [if_pos h2, if_pos (hallowed.mp h), ← irq_or_irqEnableBit]
    exact congrArg _ (hcontrol.trans (start_storeCtrl v r))
  · rw [if_pos h2, if_neg (fun hrun => Bool.eq_false_iff.mp h (hallowed.mpr hrun))]
    exact congrArg _ hcontrol
  · rw [h2, if_neg Bool.false_ne_true, if_pos h3]
    exact congrArg _ hcontrol
  · rw [h2, h3, if_neg Bool.false_ne_true, if_neg Bool.false_ne_true]
    exact congrArg _ hcontrol

theorem exec_wrCtrlStart_of_allowed {v : Word} {s : State} (h : s.startAllowed v = true) :
    exec (.wrCtrlStart v) s = .next ((s.storeCtrl v).start v) := by
  rw [exec_wrCtrlStart, if_pos h]

theorem exec_wrCtrlStart_of_ignored {v : Word} {s : State} (h : s.startAllowed v = false) :
    exec (.wrCtrlStart v) s = .next (s.storeCtrl v) := by
  rw [exec_wrCtrlStart, h, if_neg Bool.false_ne_true]

/-- Settles O27: without ENABLE in the value the parameter alone decides whether START_OP acts. -/
theorem startWithEnableClearFollowsTheParameter :
    Obligations.StartWithEnableClearFollowsTheParameter := by
  unfold Obligations.StartWithEnableClearFollowsTheParameter
  intro s v _ h0
  refine ⟨fun hrequires => ?_, fun hfree => ?_⟩
  · exact exec_wrCtrlStart_of_ignored ((startAllowed_eq_false_iff v s).mpr ⟨h0, hrequires⟩)
  · rw [exec_wrCtrlStart_of_allowed ((startAllowed_iff v s).mpr (.inr hfree)), start_storeCtrl]
    rfl

/-! ### The line -/

/-- Only a START with IRQ_ENABLE and a RESET_STAT touch the line. -/
theorem control_irq {v : Word} (h : v.getLsbD 1 = false ∨ v.getLsbD 2 = false)
    (h3 : v.getLsbD 3 = false) (s : State) : (s.control v).irq = s.irq := by
  obtain ⟨h2, -, hcontrol⟩ | ⟨-, -, hcontrol⟩ | ⟨-, hreset, -⟩ | ⟨-, -, hcontrol⟩ := control_cases s v
  · have h1 : irqEnableBit v = false := h.resolve_right (by rw [h2]; decide)
    rw [hcontrol, State.start_irq, h1, Bool.or_false, State.storeCtrl_irq]
  · rw [hcontrol, State.storeCtrl_irq]
  · rw [h3] at hreset
    exact absurd hreset Bool.false_ne_true
  · rw [hcontrol, State.storeCtrl_irq]

/-- Settles O40: the Control writes that touch the line are excluded, and a Status write is dropped. -/
theorem changingEnablesKeepsTheLine : Obligations.ChangingEnablesKeepsTheLine := by
  unfold Obligations.ChangingEnablesKeepsTheLine
  intro s size rest
  refine ⟨fun v h h3 => ⟨_, step_controlWrite rfl, control_irq h h3 _⟩, fun v => ?_⟩
  refine ⟨{ s with pending := rest }, ?_, rfl⟩
  rw [step_wr rfl, decodeOffset_status]
  exact statusWritesAreDropped _ v

/-! ### The transition table (42_control_commands.md, section 6) -/

theorem mode_of_disabled {s : State} (h : s.ctrl.getLsbD 0 = false) : s.mode = .disabled := by
  obtain ⟨hdisabled, -, -, -⟩ := mode_table s
  exact hdisabled.mpr h

theorem mode_of_ended {s : State} (h : s.ctrl.getLsbD 0 = true) (hstatus : s.status = 0b11#2) :
    s.mode = .ended := by
  obtain ⟨-, -, -, hended⟩ := mode_table s
  exact hended.mpr ⟨h, by rw [hstatus]; decide⟩

/-- Under the invariant the state of the device is told by ENABLE and by whether `STATUS` is clear. -/
theorem State.Inv.mode_eq {s : State} (h : s.Inv) :
    s.mode = if s.ctrl.getLsbD 0 = false then .disabled
      else if s.status = 0b00#2 then .idle else .ended := by
  split_ifs with h0 hclear
  · exact mode_of_disabled h0
  · obtain ⟨-, hidle, -, -⟩ := mode_table s
    exact hidle.mpr ⟨eq_true_of_ne_false h0, hclear⟩
  · obtain ⟨hstatus, -, -⟩ := h
    exact mode_of_ended (eq_true_of_ne_false h0) (hstatus.resolve_left hclear)

/-- Settles O30: the column of the table is the one of the four Control writes the value is, and a mask that
keeps ENABLE stores the ENABLE of the value. -/
theorem controlWritesFollowTheTransitionTable :
    Obligations.ControlWritesFollowTheTransitionTable := by
  unfold Obligations.ControlWritesFollowTheTransitionTable
  intro s size v rest hinv hmask hpending
  let r : State := { s with pending := rest }
  have hinvr : r.Inv := hinv
  have henable : (r.storeCtrl v).ctrl.getLsbD 0 = v.getLsbD 0 := storedControl_enableBit hmask v
  refine ⟨r.control v, step_controlWrite hpending, fun h2 h0 => ?_, fun h2 h0 hrequires => ?_,
    fun h2 h3 => ?_, fun h2 h3 => ?_⟩
  · rw [control_of_start r h2 ((startAllowed_iff v r).mpr (.inl h0))]
    have hstatus : ((r.storeCtrl v).start v).status = 0b11#2 := by rw [start_eq]
    refine ⟨mode_of_ended ?_ hstatus, hstatus⟩
    rw [State.start_ctrl, henable, h0]
  · rw [control_of_ignored r h2 ((startAllowed_eq_false_iff v r).mpr ⟨h0, hrequires⟩)]
    exact ⟨mode_of_disabled (henable.trans h0), rfl, rfl, rfl⟩
  · rw [control_of_reset r h2 h3, resetStat_mode, henable]
    exact ⟨rfl, rfl, rfl⟩
  · rw [control_of_config r h2 h3, (hinvr.storeCtrl v).mode_eq, henable]
    exact ⟨rfl, rfl, rfl, rfl⟩

end Sys2Proof.Machine
end

section
/-! What an instruction can do, for every instruction and every state: one case for the reads, one for the
stores, and one for each Control write. The invariants of the registers and of the line follow from it. -/

namespace Sys2Proof.Machine

/-- What an instruction does to a state. -/
inductive Effect : Instr → State → State → Prop
  | read (off : Nat) (g : Target) (s : State) : Effect (g.readClass off) s (s.read g)
  | store (off : Nat) (v : Word) (g : Target) (hg : g ≠ .control) (s : State) :
      Effect (g.writeClass off v) s (s.storeAt v g)
  | start (v : Word) (s : State) (h : s.startAllowed v = true) :
      Effect (.wrCtrlStart v) s ((s.storeCtrl v).start v)
  | startIgnored (v : Word) (s : State) (h : s.startAllowed v = false) :
      Effect (.wrCtrlStart v) s (s.storeCtrl v)
  | reset (v : Word) (s : State) : Effect (.wrCtrlReset v) s (s.storeCtrl v).resetStat
  | config (v : Word) (s : State) : Effect (.wrCtrlCfg v) s (s.storeCtrl v)

theorem Effect.exec_eq {i : Instr} {s t : State} (h : Effect i s t) : exec i s = .next t := by
  cases h with
  | read off g => exact exec_readClass off g s
  | store off v g hg => exact exec_writeClass off v s hg
  | start v _ h => exact exec_wrCtrlStart_of_allowed h
  | startIgnored v _ h => exact exec_wrCtrlStart_of_ignored h
  | reset v => exact exec_wrCtrlReset v s
  | config v => exact exec_wrCtrlCfg v s

/-- Every instruction has one of these effects. -/
theorem exists_effect (i : Instr) (s : State) : ∃ t, Effect i s t := by
  cases i with
  | rdA n => exact ⟨_, .read 0 (.matrixA n) s⟩
  | rdB n => exact ⟨_, .read 0 (.matrixB n) s⟩
  | rdC n => exact ⟨_, .read 0 (.matrixC n) s⟩
  | rdCtrl => exact ⟨_, .read 0 .control s⟩
  | rdSize => exact ⟨_, .read 0 .size s⟩
  | rdStatus => exact ⟨_, .read 0 .status s⟩
  | rdId => exact ⟨_, .read 0 .id s⟩
  | rdInv off => exact ⟨_, .read off .invalid s⟩
  | wrA n v => exact ⟨_, .store 0 v (.matrixA n) nofun s⟩
  | wrB n v => exact ⟨_, .store 0 v (.matrixB n) nofun s⟩
  | wrC n v => exact ⟨_, .store 0 v (.matrixC n) nofun s⟩
  | wrSize v => exact ⟨_, .store 0 v .size nofun s⟩
  | wrStatus v => exact ⟨_, .store 0 v .status nofun s⟩
  | wrId v => exact ⟨_, .store 0 v .id nofun s⟩
  | wrInv off v => exact ⟨_, .store off v .invalid nofun s⟩
  | wrCtrlStart v =>
    cases h : s.startAllowed v with
    | true => exact ⟨_, .start v s h⟩
    | false => exact ⟨_, .startIgnored v s h⟩
  | wrCtrlReset v => exact ⟨_, .reset v s⟩
  | wrCtrlCfg v => exact ⟨_, .config v s⟩

theorem effect_of_exec {i : Instr} {s t : State} (h : exec i s = .next t) : Effect i s t := by
  obtain ⟨u, hu⟩ := exists_effect i s
  obtain rfl : t = u := Host.Outcome.next.inj (h.symm.trans hu.exec_eq)
  exact hu

/-- Settles O41: each effect writes the registers of its own instruction. -/
theorem eachRegisterHasItsWriters : Obligations.EachRegisterHasItsWriters := by
  unfold Obligations.EachRegisterHasItsWriters
  intro i s
  obtain ⟨t, ht⟩ := exists_effect i s
  refine ⟨t, ht.exec_eq, ?_⟩
  cases ht with
  | read off g => exact ⟨fun _ => rfl, fun _ => rfl, fun _ => rfl, fun _ => rfl, fun _ => rfl,
      fun _ => rfl, rfl, rfl⟩
  | store off v g hg =>
    refine ⟨fun h => storeAt_A v s fun k hk => h k v ?_, fun h => storeAt_B v s fun k hk => h k v ?_,
      fun _ => storeAt_C v s g, fun _ => storeAt_ctrl v s hg,
      fun h => storeAt_size v s fun hk => h v ?_, fun _ => storeAt_status v s g,
      storeAt_config v s g, storeAt_pending v s g⟩
    all_goals rw [hk]; rfl
  | start v _ h => exact ⟨fun _ => State.start_A v _, fun _ => State.start_B v _,
      fun h => absurd rfl (h v), fun h => absurd rfl (h v).1, fun _ => State.start_size v _,
      fun h => absurd rfl (h v).1, State.start_config v _, State.start_pending v _⟩
  | startIgnored v _ h => exact ⟨fun _ => rfl, fun _ => rfl, fun _ => rfl,
      fun h => absurd rfl (h v).1, fun _ => rfl, fun _ => rfl, rfl, rfl⟩
  | reset v => exact ⟨fun _ => rfl, fun _ => rfl, fun _ => rfl, fun h => absurd rfl (h v).2.1,
      fun _ => rfl, fun h => absurd rfl (h v).2, rfl, rfl⟩
  | config v => exact ⟨fun _ => rfl, fun _ => rfl, fun _ => rfl, fun h => absurd rfl (h v).2.2,
      fun _ => rfl, fun _ => rfl, rfl, rfl⟩

/-! ### The writers of the line (60_exceptions.md R143) -/

/-- The instruction asserts the line in this state. -/
def assertsLine (i : Instr) (s : State) : Prop :=
  ∃ v, i = .wrCtrlStart v ∧ v.getLsbD 1 = true ∧
    (v.getLsbD 0 = true ∨ s.config.startRequiresEnable = false)

/-- The instruction deasserts the line in this state. -/
def deassertsLine (i : Instr) (s : State) : Prop :=
  (∃ v, i = .wrCtrlReset v) ∨
    (i = .rdStatus ∧ (s.ctrl.getLsbD 0 = true ∨ s.config.statusReadAcksWhenDisabled = true))

theorem readClass_not_asserts (off : Nat) (g : Target) (s : State) :
    ¬ assertsLine (g.readClass off) s := by
  rintro ⟨v, hv, -⟩
  cases g <;> cases hv

theorem readClass_deasserts_iff (off : Nat) (g : Target) (s : State) :
    deassertsLine (g.readClass off) s ↔ g = .status ∧ s.statusReadAcks = true := by
  have hacks : s.statusReadAcks = true ↔
      s.ctrl.getLsbD 0 = true ∨ s.config.statusReadAcksWhenDisabled = true := by
    rw [State.statusReadAcks, State.enabled, enableBit, Bool.or_eq_true]
  rw [hacks]
  cases g <;> simp [deassertsLine, Target.readClass]

theorem writeClass_not_asserts (off : Nat) (v : Word) {g : Target} (hg : g ≠ .control) (s : State) :
    ¬ assertsLine (g.writeClass off v) s := by
  rintro ⟨v, hv, -⟩
  cases g with
  | control => exact hg rfl
  | _ => cases hv

theorem writeClass_not_deasserts (off : Nat) (v : Word) {g : Target} (hg : g ≠ .control)
    (s : State) : ¬ deassertsLine (g.writeClass off v) s := by
  rintro (⟨v, hv⟩ | ⟨hv, -⟩)
  all_goals
    cases g with
    | control => exact hg rfl
    | _ => cases hv

theorem wrCtrlStart_asserts_iff (v : Word) (s : State) :
    assertsLine (.wrCtrlStart v) s ↔ v.getLsbD 1 = true ∧ s.startAllowed v = true := by
  rw [startAllowed_iff]
  constructor
  · rintro ⟨_, hv, h⟩
    cases hv
    exact h
  · exact fun h => ⟨v, rfl, h⟩

/-- An effect that keeps the line, of an instruction that neither asserts nor deasserts it. -/
theorem line_kept {i : Instr} {s t : State} (h : t.irq = s.irq) (hup : ¬ assertsLine i s)
    (hdown : ¬ deassertsLine i s) :
    (s.irq = false → (t.irq = true ↔ assertsLine i s)) ∧
    (s.irq = true → (t.irq = false ↔ deassertsLine i s)) := by
  rw [h]
  exact ⟨fun hs => iff_of_false (Bool.eq_false_iff.mp hs) hup,
    fun hs => iff_of_false (by simp [hs]) hdown⟩

theorem effect_irq {i : Instr} {s t : State} (h : Effect i s t) :
    (s.irq = false → (t.irq = true ↔ assertsLine i s)) ∧
    (s.irq = true → (t.irq = false ↔ deassertsLine i s)) := by
  cases h with
  | read off g =>
    have hup := readClass_not_asserts off g s
    have hdown := readClass_deasserts_iff off g s
    by_cases hacks : g = .status ∧ s.statusReadAcks = true
    · have hlow : (s.read g).irq = false := if_pos hacks
      exact ⟨fun _ => iff_of_false (Bool.eq_false_iff.mp hlow) hup,
        fun _ => iff_of_true hlow (hdown.mpr hacks)⟩
    · exact line_kept (if_neg hacks) hup (hacks ∘ hdown.mp)
  | store off v g hg =>
    exact line_kept (storeAt_irq v s g) (writeClass_not_asserts off v hg s)
      (writeClass_not_deasserts off v hg s)
  | start v _ h =>
    have hline : ((s.storeCtrl v).start v).irq = (s.irq || irqEnableBit v) := State.start_irq v _
    rw [hline]
    refine ⟨fun hs => ?_, fun hs => ?_⟩
    · rw [hs, Bool.false_or, wrCtrlStart_asserts_iff, and_iff_left h]
      rfl
    · rw [hs, Bool.true_or]
      simp [deassertsLine]
  | startIgnored v _ h =>
    refine line_kept rfl (fun hup => ?_) (by simp [deassertsLine])
    exact Bool.eq_false_iff.mp h ((wrCtrlStart_asserts_iff v s).mp hup).2
  | reset v =>
    exact ⟨fun _ => by simp [assertsLine], fun _ => iff_of_true rfl (.inl ⟨v, rfl⟩)⟩
  | config v => exact line_kept rfl (by simp [assertsLine]) (by simp [deassertsLine])

/-- Settles O38: `effect_irq` for the effect of the instruction. -/
theorem theLineHasExactlyItsWriters : Obligations.TheLineHasExactlyItsWriters := by
  unfold Obligations.TheLineHasExactlyItsWriters
  exact fun i s t h => effect_irq (effect_of_exec h)

/-! ### The invariant of the registers -/

/-- Settles O43: a step runs one class or none, and every class keeps the invariant. -/
theorem everyStepKeepsTheInvariant : Obligations.EveryStepKeepsTheInvariant := by
  unfold Obligations.EveryStepKeepsTheInvariant
  exact fun s t hs ht => hs.step ht

/-- Settles O44: `STATUS` and the line are clear, and a `CTRL` of 0 lies under every mask. -/
theorem theInvariantHoldsAtAttach : Obligations.TheInvariantHoldsAtAttach := by
  unfold Obligations.TheInvariantHoldsAtAttach
  exact fun cfg init => ⟨.inl rfl, nofun, BitVec.zero_and⟩

/-- Settles O46: the fields of the attached state, and the mode that its clear ENABLE stands for. -/
theorem attachLeavesTheDecidedValues : Obligations.AttachLeavesTheDecidedValues := by
  unfold Obligations.AttachLeavesTheDecidedValues
  refine ⟨fun cfg init => ?_, rfl⟩
  have hmode : (State.attach cfg init).mode = .disabled := mode_of_disabled BitVec.getLsbD_zero
  exact ⟨rfl, rfl, rfl, rfl, rfl, rfl, rfl, hmode⟩

end Sys2Proof.Machine
end

section
/-! The multiply (43_multiply_engine.md): the wrapped sum of the exact products is the sum in 32-bit
arithmetic, since the wrap is the ring homomorphism of the integers to the words; the commands' effect on `C`
follows from it. -/

namespace Sys2Proof.Machine

/-! ### The wrap as a homomorphism (43_multiply_engine.md, section 3) -/

theorem wrap32_eq_intCast (z : Int) : wrap32 z = (z : Word) := by
  apply BitVec.eq_of_toInt_eq
  rw [BitVec.toInt_ofInt, BitVec.toInt_intCast]

theorem intCast_toInt (x : Word) : ((x.toInt : Int) : Word) = x := by
  rw [← wrap32_eq_intCast]
  exact BitVec.ofInt_toInt

theorem natCast_toNat (x : Word) : ((x.toNat : Nat) : Word) = x := by
  rw [BitVec.natCast_eq_ofNat, BitVec.ofNat_toNat, BitVec.setWidth_eq]

/-- The dot product of a row in 32-bit arithmetic. -/
theorem rowProduct_eq_sum (A : Vector Word 100) (B : Vector Word 10) (n : Fin 11) (r : Fin n.val) :
    rowProduct A B n r = ∑ c : Fin n.val, matrixElement A n r c * vectorElement B n c := by
  rw [rowProduct, exactDot_eq_sum, wrap32_eq_intCast, Int.cast_sum]
  refine Finset.sum_congr rfl fun c _ => ?_
  rw [Int.cast_mul, intCast_toInt, intCast_toInt]

theorem ofNat_sum_products {n : Nat} (x y : Fin n → Word) :
    BitVec.ofNat 32 (∑ c, (x c).toNat * (y c).toNat) = ∑ c, x c * y c := by
  rw [← BitVec.natCast_eq_ofNat, Nat.cast_sum]
  refine Finset.sum_congr rfl fun c _ => ?_
  rw [Nat.cast_mul, natCast_toNat, natCast_toNat]

/-- The fold that wraps at every product and sum. -/
theorem foldl_products (ps : List (Word × Word)) (acc : Word) :
    ps.foldl (fun acc p => acc + p.1 * p.2) acc = acc + (ps.map fun p => p.1 * p.2).sum := by
  induction ps generalizing acc with
  | nil => simp
  | cons p ps ih => rw [List.foldl_cons, ih, List.map_cons, List.sum_cons, add_assoc]

/-- Settles O34: all three forms are the sum in 32-bit arithmetic. -/
theorem wrappingOnceEqualsWrappingAtEveryStep : Obligations.WrappingOnceEqualsWrappingAtEveryStep := by
  unfold Obligations.WrappingOnceEqualsWrappingAtEveryStep
  intro A B n r
  refine ⟨by rw [rowProduct, exactDot_eq_sum], ?_, ?_⟩
  · rw [ofNat_sum_products, rowProduct_eq_sum]
  · rw [foldl_products, List.map_ofFn, List.sum_ofFn, BitVec.zero_add, rowProduct_eq_sum]
    rfl

/-! ### The product by plain indices -/

theorem matrixElement_eq_getD (A : Vector Word 100) (n : Fin 11) (r c : Fin n.val) :
    matrixElement A n r c = A[r.val * n.val + c.val]?.getD 0 := by
  rw [matrixElement, Vector.getElem?_eq_getElem (packedIndex_lt n r c), Option.getD_some]

theorem vectorElement_eq_getD (B : Vector Word 10) (n : Fin 11) (c : Fin n.val) :
    vectorElement B n c = B[c.val]?.getD 0 := by
  have hc : c.val < 10 := by omega
  rw [vectorElement, Vector.getElem?_eq_getElem hc, Option.getD_some]

/-- The exact product of row `r`, by the indices of the packed cells (43_multiply_engine.md R115). -/
def packedDot (A : Vector Word 100) (B : Vector Word 10) (n r : Nat) : Int :=
  ∑ c ∈ Finset.range n, (A[r * n + c]?.getD 0).toInt * (B[c]?.getD 0).toInt

theorem exactDot_eq_packedDot (A : Vector Word 100) (B : Vector Word 10) (n : Fin 11)
    (r : Fin n.val) : exactDot A B n r = packedDot A B n.val r.val := by
  rw [exactDot_eq_sum, packedDot, Finset.sum_range]
  simp only [matrixElement_eq_getD, vectorElement_eq_getD]

theorem multiply_C_eq_packedDot {s : State} {r : Nat} (h : r < s.size.val) (hr : r < 10) :
    s.multiply.C[r] = BitVec.ofInt 32 (packedDot s.A s.B s.size.val r) := by
  rw [multiply_C_of_lt h hr, rowProduct, exactDot_eq_packedDot]

/-- The same cell in 32-bit arithmetic. -/
theorem multiply_C_eq_sum {s : State} {r : Nat} (h : r < s.size.val) (hr : r < 10) :
    s.multiply.C[r] = ∑ c ∈ Finset.range s.size.val,
      s.A[r * s.size.val + c]?.getD 0 * s.B[c]?.getD 0 := by
  rw [multiply_C_of_lt h hr, rowProduct_eq_sum, Finset.sum_range]
  simp only [matrixElement_eq_getD, vectorElement_eq_getD]

/-- A row's packed indices stay below `n * n`. -/
theorem packedIndex_lt_square {n r c : Nat} (hr : r < n) (hc : c < n) : r * n + c < n * n :=
  calc r * n + c < r * n + n := Nat.add_lt_add_left hc _
    _ = (r + 1) * n := (Nat.succ_mul r n).symm
    _ ≤ n * n := Nat.mul_le_mul_right n hr

/-- Settles O26: START_OP with ENABLE runs `START()`, whose `C` is that of the multiply. -/
theorem startMultipliesAndSetsStatus : Obligations.StartMultipliesAndSetsStatus := by
  unfold Obligations.StartMultipliesAndSetsStatus
  intro s v _ h0
  refine ⟨s.multiply.C, ?_, fun r hr h => multiply_C_eq_packedDot h hr,
    fun r hr h => multiply_C_of_le h hr⟩
  rw [exec_wrCtrlStart_of_enable h0, start_storeCtrl]
  rfl

/-- START_OP with ENABLE leaves the product in `C`. -/
theorem exec_wrCtrlStart_C {v : Word} (h0 : v.getLsbD 0 = true) (s : State) :
    ∃ t, exec (.wrCtrlStart v) s = .next t ∧ t.C = s.multiply.C :=
  ⟨_, exec_wrCtrlStart_of_enable h0 s, State.start_C v _⟩

/-- Settles O35: the sum at size 2 has two terms. -/
theorem sizeTwoMultiplyReadsPackedRows : Obligations.SizeTwoMultiplyReadsPackedRows := by
  unfold Obligations.SizeTwoMultiplyReadsPackedRows
  intro s v hsize _ h0
  obtain ⟨t, ht, hC⟩ := exec_wrCtrlStart_C h0 s
  have hval : s.size.val = 2 := congrArg Fin.val hsize
  refine ⟨t, ht, ?_, ?_, fun r hr h => ?_⟩
  · simp only [hC]
    rw [multiply_C_eq_sum (by omega) (by omega), hval]
    simp [Finset.sum_range_succ]
  · simp only [hC]
    rw [multiply_C_eq_sum (by omega) (by omega), hval]
    simp [Finset.sum_range_succ]
  · simp only [hC]
    exact multiply_C_of_le (by omega) hr

/-- Settles O36: each product of a row is of two populated cells. -/
theorem multiplyReadsOnlyPopulatedCells : Obligations.MultiplyReadsOnlyPopulatedCells := by
  unfold Obligations.MultiplyReadsOnlyPopulatedCells
  intro s s' v hsize _ h0 hA hB
  obtain ⟨t, ht, hC⟩ := exec_wrCtrlStart_C h0 s
  obtain ⟨t', ht', hC'⟩ := exec_wrCtrlStart_C h0 s'
  refine ⟨t, t', ht, ht', fun r hr h => ?_⟩
  simp only [hC, hC']
  rw [multiply_C_eq_sum h hr, multiply_C_eq_sum (hsize ▸ h) hr, ← hsize]
  refine Finset.sum_congr rfl fun c hc => ?_
  have hcn : c < s.size.val := Finset.mem_range.mp hc
  have hindex : r * s.size.val + c < s.size.val * s.size.val := packedIndex_lt_square h hcn
  have hcell : r * s.size.val + c < 100 := packedIndex_lt s.size ⟨r, h⟩ ⟨c, hcn⟩
  have hc10 : c < 10 := by omega
  rw [Vector.getElem?_eq_getElem hcell, Vector.getElem?_eq_getElem hcell,
    Vector.getElem?_eq_getElem hc10, Vector.getElem?_eq_getElem hc10, hA _ hcell hindex, hB _ hc10 hcn]

end Sys2Proof.Machine
end

section
/-! Runs (10_state.md R22, R24): the run of a list is the fold of its transactions, so that a statement about
a run is an induction over the list. -/

namespace Sys2Proof.Machine

/-! ### A run as a fold -/

/-- The state with the host's list taken off. -/
def State.drained (s : State) : State := { s with pending := [] }

theorem run_eq_foldl (ts : List Transaction) (s : State) :
    run ts.length { s with pending := ts } = .next (ts.foldl State.after s.drained) := by
  induction ts generalizing s with
  | nil => rfl
  | cons x rest ih =>
    have hstep : step { s with pending := x :: rest } = .next { s.after x with pending := rest } :=
      (step_eq_after rfl).trans (congrArg _ (after_withPending s x rest))
    rw [List.length_cons, run_succ hstep, ih, List.foldl_cons, State.drained, State.drained,
      after_withPending s x []]

theorem runProgram_eq_foldl (s : State) :
    runProgram s = .next (s.pending.foldl State.after s.drained) :=
  run_eq_foldl s.pending s

/-- The run of a given list. -/
theorem runProgram_of_pending {s : State} {ts : List Transaction} (h : s.pending = ts) :
    runProgram s = .next (ts.foldl State.after s.drained) :=
  h ▸ runProgram_eq_foldl s

theorem after_pending (s : State) (x : Transaction) : (s.after x).pending = s.pending :=
  exec_pending (exec_dispatch x s)

theorem foldl_after_pending (ts : List Transaction) (s : State) :
    (ts.foldl State.after s).pending = s.pending := by
  induction ts generalizing s with
  | nil => rfl
  | cons x rest ih => rw [List.foldl_cons, ih, after_pending]

theorem after_wr_returned (s : State) (off size : Nat) (v : Word) :
    (s.after (.wr off size v)).returned = s.returned :=
  exec_writeClass_returned (exec_writeClass_eq off v (decodeOffset off) s)

/-- One word for each read, none for a write. -/
theorem foldl_after_returned (ts : List Transaction) (s : State) :
    ∃ ws, (ts.foldl State.after s).returned = s.returned ++ ws ∧
      ws.length = (ts.filter isReadTransaction).length := by
  induction ts generalizing s with
  | nil => exact ⟨[], (List.append_nil _).symm, rfl⟩
  | cons x rest ih =>
    obtain ⟨ws, hws, hlength⟩ := ih (s.after x)
    cases x with
    | rd off size =>
      refine ⟨s.readAnswer (decodeOffset off) :: ws, ?_, congrArg Nat.succ hlength⟩
      rw [List.foldl_cons, hws, ← List.singleton_append, ← List.append_assoc]
      rfl
    | wr off size v => exact ⟨ws, by rw [List.foldl_cons, hws, after_wr_returned], hlength⟩

/-- Settles O50: the fold of the whole list. -/
theorem aRunReturnsOneWordPerRead : Obligations.ARunReturnsOneWordPerRead := by
  unfold Obligations.ARunReturnsOneWordPerRead
  intro s
  obtain ⟨ws, hws, hlength⟩ := foldl_after_returned s.pending s.drained
  exact ⟨_, ws, runProgram_eq_foldl s, foldl_after_pending _ _, hws, hlength⟩

/-! ### Two disabled devices (40_register_reads.md, section 1) -/

/-- Two disabled devices whose parameters and answers so far agree; their registers may differ. -/
def DisabledAlike (s s' : State) : Prop :=
  s.enabled = false ∧ s'.enabled = false ∧ s.config = s'.config ∧ s.returned = s'.returned

/-- No transaction but a Control write touches `CTRL` or the parameters. -/
theorem after_ctrl_config {x : Transaction} (hx : ∀ z v, x ≠ .wr 0x400 z v) (s : State) :
    (s.after x).ctrl = s.ctrl ∧ (s.after x).config = s.config := by
  cases x with
  | rd off size => exact ⟨rfl, rfl⟩
  | wr off size v =>
    have hg : decodeOffset off ≠ .control := fun h =>
      hx size v (by rw [(decodeOffset_eq_iff off .control).mp h])
    rw [State.after, write_of_ne_control v s hg]
    exact ⟨storeAt_ctrl v s hg, storeAt_config v s _⟩

theorem DisabledAlike.after {s s' : State} (h : DisabledAlike s s') {x : Transaction}
    (hx : ∀ z v, x ≠ .wr 0x400 z v) : DisabledAlike (s.after x) (s'.after x) := by
  obtain ⟨hs, hs', hconfig, hreturned⟩ := h
  obtain ⟨hctrl, hkept⟩ := after_ctrl_config hx s
  obtain ⟨hctrl', hkept'⟩ := after_ctrl_config hx s'
  refine ⟨(enabled_congr hctrl).trans hs, (enabled_congr hctrl').trans hs', ?_, ?_⟩
  · rw [hkept, hkept', hconfig]
  · cases x with
    | rd off size =>
      show s.returned ++ [s.readAnswer _] = s'.returned ++ [s'.readAnswer _]
      rw [readAnswer_of_disabled hs, readAnswer_of_disabled hs', hconfig, hreturned]
    | wr off size v => rw [after_wr_returned, after_wr_returned, hreturned]

theorem DisabledAlike.foldl_after {s s' : State} (h : DisabledAlike s s') {ts : List Transaction}
    (hts : ∀ z v, Transaction.wr 0x400 z v ∉ ts) :
    DisabledAlike (ts.foldl State.after s) (ts.foldl State.after s') := by
  induction ts generalizing s s' with
  | nil => exact h
  | cons x rest ih =>
    have hx : ∀ z v, x ≠ .wr 0x400 z v := fun z v hxv => hts z v (hxv ▸ List.mem_cons_self)
    exact ih (h.after hx) fun z v hmem => hts z v (List.mem_cons_of_mem x hmem)

/-- Settles O51: the two devices stay alike over the list, and alike means the same words. -/
theorem aDisabledDeviceRevealsNothing : Obligations.ADisabledDeviceRevealsNothing := by
  unfold Obligations.ADisabledDeviceRevealsNothing
  intro s s' h h' hconfig hpending hreturned hlist
  have halike : DisabledAlike s.drained s'.drained := ⟨h, h', hconfig, hreturned⟩
  obtain ⟨-, -, -, hwords⟩ := halike.foldl_after hlist
  exact ⟨_, _, runProgram_eq_foldl s, runProgram_of_pending hpending.symm, hwords⟩

/-! ### What a run keeps (10_state.md R10 to R12) -/

/-- A part `f` of the state that no transaction of a kind `Q` changes is kept by every run of such
transactions. -/
theorem run_keeps {α : Type} {f : State → α} {Q : Transaction → Prop}
    (hlist : ∀ s later, f { s with pending := later } = f s)
    (hafter : ∀ s x, Q x → f (s.after x) = f s) {k : Nat} {s t : State}
    (h : run k s = .next t) (hQ : ∀ x ∈ s.pending, Q x) : f t = f s := by
  induction k generalizing s with
  | zero =>
    cases h
    rfl
  | succ k ih =>
    cases hp : s.pending with
    | nil =>
      rw [run_succ (step_nil hp)] at h
      exact ih h hQ
    | cons x rest =>
      rw [run_succ (step_eq_after hp)] at h
      rw [hp] at hQ
      rw [ih h ?_, hafter _ _ (hQ x List.mem_cons_self), hlist]
      rw [after_pending]
      exact fun y hy => hQ y (List.mem_cons_of_mem x hy)

theorem read_wordAt (s : State) (g k : Target) : (s.read g).wordAt k = s.wordAt k := by
  cases k <;> rfl

/-- A Control write leaves the cells of `A` and `B`. -/
theorem control_wordAt (v : Word) (s : State) {k : Target}
    (hk : (∃ i, k = .matrixA i) ∨ ∃ i, k = .matrixB i) : (s.control v).wordAt k = s.wordAt k := by
  obtain ⟨i, rfl⟩ | ⟨i, rfl⟩ := hk <;> simp only [State.wordAt, control_frame]

/-- Only a write at its offset changes a cell of `A` or `B`. -/
theorem after_wordAt {k : Target} (hk : (∃ i, k = .matrixA i) ∨ ∃ i, k = .matrixB i) {x : Transaction}
    (hx : ∀ off z v, k.occupies off → x ≠ .wr off z v) (s : State) :
    (s.after x).wordAt k = s.wordAt k := by
  cases x with
  | rd off size => exact read_wordAt s _ k
  | wr off size v =>
    have hne : k ≠ decodeOffset off := fun h =>
      hx off size v ((decodeOffset_eq_iff off k).mp h.symm) rfl
    rw [State.after, State.write]
    split_ifs
    · exact control_wordAt v s hk
    · exact storeAt_wordAt v s hne

/-- Only a Control write with START_OP changes a cell of `C`. -/
theorem after_C {x : Transaction} (hx : ∀ z v, v.getLsbD 2 = true → x ≠ .wr 0x400 z v) (s : State) :
    (s.after x).C = s.C := by
  cases x with
  | rd off size => rfl
  | wr off size v =>
    rw [State.after, State.write]
    split_ifs with hg
    · have hoff : off = 0x400 := (decodeOffset_eq_iff off .control).mp hg
      have h2 : v.getLsbD 2 = false := Bool.eq_false_iff.mpr fun h => hx size v h (by rw [hoff])
      exact control_C_of_noStart h2 s
    · exact storeAt_C v s _

/-- Settles O47: along the run, each cell is kept by every transaction that is not a write of it. -/
theorem cellsHoldUntilWritten : Obligations.CellsHoldUntilWritten := by
  unfold Obligations.CellsHoldUntilWritten
  intro k s t h
  refine ⟨fun i hi => ?_, fun i hi => ?_, fun hC => ?_⟩
  · refine run_keeps (f := fun s => s.wordAt (.matrixA i))
      (Q := fun x => ∀ off z v, Target.occupies (.matrixA i) off → x ≠ .wr off z v)
      (fun _ _ => rfl) (fun s x hx => after_wordAt (.inl ⟨i, rfl⟩) hx s) h ?_
    rintro x hx off z v rfl rfl
    exact hi z v hx
  · refine run_keeps (f := fun s => s.wordAt (.matrixB i))
      (Q := fun x => ∀ off z v, Target.occupies (.matrixB i) off → x ≠ .wr off z v)
      (fun _ _ => rfl) (fun s x hx => after_wordAt (.inr ⟨i, rfl⟩) hx s) h ?_
    rintro x hx off z v rfl rfl
    exact hi z v hx
  · refine run_keeps (f := State.C) (Q := fun x => ∀ z v, v.getLsbD 2 = true → x ≠ .wr 0x400 z v)
      (fun _ _ => rfl) (fun s x hx => after_C hx s) h ?_
    rintro x hx z v h2 rfl
    exact hC z v h2 hx

end Sys2Proof.Machine
end

section
/-! The programs of the spec, run transaction by transaction: the size read back, cells written through the
closed gate, and the two read-modify-write hazards of 70_reset_and_hazards.md, section 3. -/

namespace Sys2Proof.Machine

/-! ### The transactions of the programs -/

theorem read_of_enabled {s : State} (h : s.enabled = true) {g : Target} (hg : g ≠ .status) :
    s.read g = s.answer (s.wordAt g) := by
  rw [State.read, State.readAnswer, if_pos h, lineAfterRead_of_ne_status s hg]
  rfl

theorem read_of_disabled {s : State} (h : s.enabled = false) {g : Target} (hstatus : g ≠ .status)
    (hinvalid : g ≠ .invalid) : s.read g = s.answer disabledWord := by
  rw [State.read, readAnswer_of_disabled h, if_neg hinvalid, lineAfterRead_of_ne_status s hstatus]
  rfl

section
variable (s : State) (size : Nat)

theorem after_wrA (i : Fin 100) (v : Word) : s.after (.wr (4 * i.val) size v) = s.storeA i v :=
  (after_wr (decodeOffset_cellA i) s size v).trans (write_of_ne_control v s nofun)

theorem after_wrB (i : Fin 10) (v : Word) :
    s.after (.wr (0x200 + 4 * i.val) size v) = s.storeB i v :=
  (after_wr (decodeOffset_cellB i) s size v).trans (write_of_ne_control v s nofun)

theorem after_wrSize (v : Word) : s.after (.wr 0x410 size v) = s.storeSize v :=
  (after_wr decodeOffset_size s size v).trans (write_of_ne_control v s nofun)

theorem after_wrControl (v : Word) : s.after (.wr 0x400 size v) = s.control v :=
  (after_wr decodeOffset_control s size v).trans (if_pos rfl)

theorem after_rdA (i : Fin 100) : s.after (.rd (4 * i.val) size) = s.read (.matrixA i) :=
  after_rd (decodeOffset_cellA i) s size

theorem after_rdB (i : Fin 10) : s.after (.rd (0x200 + 4 * i.val) size) = s.read (.matrixB i) :=
  after_rd (decodeOffset_cellB i) s size

theorem after_rdC (i : Fin 10) : s.after (.rd (0x300 + 4 * i.val) size) = s.read (.matrixC i) :=
  after_rd (decodeOffset_cellC i) s size

theorem after_rdControl : s.after (.rd 0x400 size) = s.read .control :=
  after_rd decodeOffset_control s size

theorem after_rdSize : s.after (.rd 0x410 size) = s.read .size :=
  after_rd decodeOffset_size s size

end

/-- A mask that keeps ENABLE stores the ENABLE of a Control write, whatever its command. -/
theorem control_enabled {v : Word} {s : State} (hmask : s.config.ctrlStoreMask.getLsbD 0 = true) :
    (s.control v).enabled = v.getLsbD 0 := by
  rw [State.enabled, enableBit, State.control_ctrl, storedControl_enableBit hmask]

/-! ### The size read back (E2) -/

theorem sizeWord_clampSize_of_le {v : Word} (h : v.toNat ≤ 10) : sizeWord (clampSize v) = v := by
  apply BitVec.eq_of_toNat_eq
  rw [sizeWord_toNat, clampSize_val]
  omega

theorem sizeWord_clampSize_of_gt {v : Word} (h : v.toNat > 10) : sizeWord (clampSize v) = 10#32 := by
  apply BitVec.eq_of_toNat_eq
  rw [sizeWord_toNat, clampSize_val, BitVec.toNat_ofNat]
  omega

/-- Settles O22: the live read after the store answers the word of the clamp. -/
theorem sizeReadsBackClamped : Obligations.SizeReadsBackClamped := by
  unfold Obligations.SizeReadsBackClamped
  intro s v z z' h hpending
  have henabled : (s.drained.storeSize v).enabled = true := h
  have hread : State.read .size (s.drained.storeSize v) =
      (s.drained.storeSize v).answer (sizeWord (clampSize v)) := read_of_enabled henabled nofun
  refine ⟨_, runProgram_of_pending hpending, ?_⟩
  rw [List.foldl_cons, List.foldl_cons, List.foldl_nil, after_wrSize, after_rdSize, hread]
  refine ⟨fun hle => ?_, fun hgt => ?_⟩
  · rw [State.answer_returned, sizeWord_clampSize_of_le hle]
    rfl
  · rw [State.answer_returned, sizeWord_clampSize_of_gt hgt]
    rfl

/-! ### Cells written through the closed gate (E3) -/

/-- The live reads of a cell of `A`, then of a cell of `B`. -/
theorem read_read_of_enabled {s : State} (h : s.enabled = true) (i : Fin 100) (j : Fin 10) :
    State.read (.matrixB j) (s.read (.matrixA i)) = (s.answer s.A[i.val]).answer s.B[j.val] := by
  have hA : s.read (.matrixA i) = s.answer s.A[i.val] := read_of_enabled h nofun
  have hB : State.read (.matrixB j) (s.answer s.A[i.val]) = (s.answer s.A[i.val]).answer s.B[j.val] :=
    read_of_enabled (s := s.answer s.A[i.val]) h nofun
  rw [hA, hB]

/-- Settles O48: the stores ignore ENABLE, the first read does not, and the Control write that opens the
gate leaves the cells. -/
theorem writesWhileDisabledPersist : Obligations.WritesWhileDisabledPersist := by
  unfold Obligations.WritesWhileDisabledPersist
  intro s i j x y v z h hv hmask hpending
  let loaded : State := (s.drained.storeA i x).storeB j y
  have hgate : loaded.read (.matrixA i) = loaded.answer disabledWord :=
    read_of_disabled (s := loaded) h nofun nofun
  have hopen : (State.control v (loaded.answer disabledWord)).enabled = true :=
    (control_enabled (s := loaded.answer disabledWord) hmask).trans hv
  refine ⟨_, runProgram_of_pending hpending, ?_⟩
  simp only [List.foldl_cons, List.foldl_nil, after_wrA, after_wrB, after_rdA, after_wrControl,
    after_rdB]
  rw [hgate, read_read_of_enabled hopen]
  simp [loaded, disabledWord, State.drained]

/-! ### Read-modify-write of Control -/

/-- The product depends on `C` in the kept cells alone. -/
theorem multiply_C_congr {s t : State} (hA : s.A = t.A) (hB : s.B = t.B) (hsize : s.size = t.size)
    (hC : ∀ (r : Nat) (hr : r < 10), s.size.val ≤ r → s.C[r] = t.C[r]) :
    s.multiply.C = t.multiply.C := by
  apply Vector.ext
  intro r hr
  by_cases h : r < s.size.val
  · rw [multiply_C_eq_packedDot h hr, multiply_C_eq_packedDot (hsize ▸ h) hr, hA, hB, hsize]
  · have hle : s.size.val ≤ r := Nat.le_of_not_lt h
    rw [multiply_C_of_le hle hr, multiply_C_of_le (hsize ▸ hle) hr, hC r hr hle]

/-- With the decided mask a Control write with START_OP and ENABLE stores its value and runs `START()`. -/
theorem control_of_start_enable {v : Word} {s : State} (hmask : s.config.ctrlStoreMask = 0xFFFFFFFF#32)
    (h2 : v.getLsbD 2 = true) (h0 : v.getLsbD 0 = true) :
    s.control v = { s with ctrl := v, C := s.multiply.C, status := 0b11#2,
                           irq := s.irq || irqEnableBit v } := by
  rw [control_of_start s h2 ((startAllowed_iff v s).mpr (.inl h0)), start_storeCtrl]
  have hstored : v &&& s.config.ctrlStoreMask = v := storedControl_allOnes hmask v
  rw [hstored]

/-- Settles O31: the word read back carries the START_OP it was written with, so the second Control write
multiplies again, on the new cell. -/
theorem readModifyWriteOfControlRetriggers : Obligations.ReadModifyWriteOfControlRetriggers := by
  unfold Obligations.ReadModifyWriteOfControlRetriggers
  intro s i x hmask hpending
  refine ⟨_, runProgram_of_pending hpending, ?_⟩
  simp only [List.foldl_cons, List.foldl_nil, after_wrA, after_rdControl, after_wrControl]
  obtain ⟨first, hfirst⟩ : ∃ u, u = State.control 0x5#32 s.drained := ⟨_, rfl⟩
  have hstored : first = { s.drained with
      ctrl := 0x5#32, C := s.multiply.C, status := 0b11#2, irq := s.irq || irqEnableBit 0x5#32 } :=
    hfirst.trans (control_of_start_enable (s := s.drained) hmask (by decide) (by decide))
  have hctrl : (first.storeA i x).ctrl = 0x5#32 := by rw [hstored]; rfl
  have henabled : (first.storeA i x).enabled = true := by rw [State.enabled, hctrl]; decide
  have hread : (first.storeA i x).read .control = (first.storeA i x).answer 0x5#32 :=
    hctrl ▸ read_of_enabled henabled nofun
  have hkept : ((first.storeA i x).answer 0x5#32).config.ctrlStoreMask = 0xFFFFFFFF#32 := by
    rw [hstored]
    exact hmask
  rw [← hfirst, hread, control_of_start_enable hkept (by decide) (by decide)]
  refine ⟨?_, rfl, rfl, Bool.or_true _, ?_, ?_⟩
  · rw [hstored]
    rfl
  · rw [hstored]
    rfl
  · refine multiply_C_congr (s := (first.storeA i x).answer 0x5#32) ?_ ?_ ?_ fun r hr h => ?_
    all_goals subst hstored
    · rfl
    · rfl
    · rfl
    · exact multiply_C_of_le (s := s) h hr

/-- Settles O32: the gate answers `0`, so the word written back is ENABLE alone. -/
theorem enablingThroughTheGateLosesStoredBits :
    Obligations.EnablingThroughTheGateLosesStoredBits := by
  unfold Obligations.EnablingThroughTheGateLosesStoredBits
  intro s u hmask h hpending hu
  have hgate : s.drained.read .control = s.drained.answer disabledWord :=
    read_of_disabled (s := s.drained) h nofun nofun
  have hread : runProgram s = .next (s.drained.answer disabledWord) := by
    rw [runProgram_of_pending hpending, List.foldl_cons, List.foldl_nil, after_rdControl, hgate]
  obtain rfl := Host.Outcome.next.inj (hu.symm.trans hread)
  refine ⟨disabledWord, rfl, ?_⟩
  rw [step_controlWrite rfl, control_of_config _ (by decide) (by decide)]
  have hstored : storedControl s.config (disabledWord ||| 0x1#32) = 0x1#32 :=
    storedControl_allOnes hmask _
  exact congrArg (fun c => Host.Outcome.next { s.drained.answer disabledWord with ctrl := c }) hstored

end Sys2Proof.Machine
end

section
/-! The host's program of 43_multiply_engine.md R122: load, start, read back, from every state. -/

namespace Sys2Proof.Machine

/-! ### The wrap and the exact value (00_scope.md R8) -/

theorem toInt_wrap32_eq_iff (z : Int) : (wrap32 z).toInt = z ↔ -2 ^ 31 ≤ z ∧ z < 2 ^ 31 := by
  constructor
  · intro h
    rw [← h]
    exact ⟨BitVec.le_toInt _, BitVec.toInt_lt⟩
  · rintro ⟨hlo, hhi⟩
    exact BitVec.toInt_ofInt_eq_self (by decide) hlo hhi

/-! ### The loads -/

/-- Writing cell `m` after the cells below it. -/
theorem getD_set_of_loaded {n m : Nat} {f : Nat → Word} {cells : Vector Word n} (hm : m < n)
    (h : ∀ k < m, cells[k]?.getD 0 = f k) : ∀ k < m + 1, (cells.set m (f m))[k]?.getD 0 = f k := by
  intro k hk
  have hkn : k < n := by omega
  rw [Vector.getElem?_eq_getElem hkn, Option.getD_some, Vector.getElem_set]
  split_ifs with hmk
  · rw [hmk]
  · rw [← h k (by omega), Vector.getElem?_eq_getElem hkn, Option.getD_some]

/-- Writing the first `m` cells of `A` changes `A` alone, and those cells hold what was written. -/
theorem foldl_loadA (a : Nat → Word) {m : Nat} (hm : m ≤ 100) (s : State) :
    ∃ A' : Vector Word 100,
      ((List.range m).map fun k => Transaction.wr (4 * k) 4 (a k)).foldl State.after s =
        { s with A := A' } ∧ ∀ k < m, A'[k]?.getD 0 = a k := by
  induction m with
  | zero => exact ⟨s.A, rfl, nofun⟩
  | succ m ih =>
    obtain ⟨A', hA', hcells⟩ := ih (Nat.le_of_succ_le hm)
    refine ⟨A'.set m (a m), ?_, getD_set_of_loaded hm hcells⟩
    rw [List.range_succ, List.map_append, List.foldl_append, hA']
    exact after_wrA { s with A := A' } 4 ⟨m, hm⟩ (a m)

/-- The same for the first `m` cells of `B`. -/
theorem foldl_loadB (b : Nat → Word) {m : Nat} (hm : m ≤ 10) (s : State) :
    ∃ B' : Vector Word 10,
      ((List.range m).map fun c => Transaction.wr (0x200 + 4 * c) 4 (b c)).foldl State.after s =
        { s with B := B' } ∧ ∀ c < m, B'[c]?.getD 0 = b c := by
  induction m with
  | zero => exact ⟨s.B, rfl, nofun⟩
  | succ m ih =>
    obtain ⟨B', hB', hcells⟩ := ih (Nat.le_of_succ_le hm)
    refine ⟨B'.set m (b m), ?_, getD_set_of_loaded hm hcells⟩
    rw [List.range_succ, List.map_append, List.foldl_append, hB']
    exact after_wrB { s with B := B' } 4 ⟨m, hm⟩ (b m)

/-! ### The reads -/

/-- On an enabled device the reads of the first `m` cells of `C` answer them in order. -/
theorem foldl_readC {s : State} (h : s.enabled = true) {m : Nat} (hm : m ≤ 10) :
    ((List.range m).map fun r => Transaction.rd (0x300 + 4 * r) 4).foldl State.after s =
      { s with returned := s.returned ++ (List.range m).map fun r => s.C[r]?.getD 0 } := by
  induction m with
  | zero =>
    rw [List.range_zero, List.map_nil, List.map_nil, List.append_nil]
    rfl
  | succ m ih =>
    rw [List.range_succ, List.map_append, List.foldl_append, ih (Nat.le_of_succ_le hm),
      List.map_append, ← List.append_assoc]
    have hcell : s.C[m]?.getD 0 = s.C[m] := by
      rw [Vector.getElem?_eq_getElem hm, Option.getD_some]
    rw [List.map_singleton, List.map_singleton, hcell]
    have henabled : State.enabled
        { s with returned := s.returned ++ (List.range m).map fun r => s.C[r]?.getD 0 } = true := h
    exact (after_rdC _ 4 ⟨m, hm⟩).trans (read_of_enabled henabled nofun)

/-! ### The product of what was loaded -/

/-- The exact product of row `r` of the packed matrix `a` with the vector `b`. -/
def loadedDot (n : Nat) (a b : Nat → Word) (r : Nat) : Int :=
  ∑ c ∈ Finset.range n, (a (r * n + c)).toInt * (b c).toInt

theorem packedDot_of_loaded {n : Nat} {a b : Nat → Word} {A : Vector Word 100} {B : Vector Word 10}
    (hA : ∀ k < n * n, A[k]?.getD 0 = a k) (hB : ∀ c < n, B[c]?.getD 0 = b c) {r : Nat}
    (hr : r < n) : packedDot A B n r = loadedDot n a b r := by
  refine Finset.sum_congr rfl fun c hc => ?_
  have hcn : c < n := Finset.mem_range.mp hc
  rw [hA _ (packedIndex_lt_square hr hcn), hB c hcn]

/-- The writes of the program. -/
def loadAndStart (n : Nat) (a b : Nat → Word) (v : Word) : List Transaction :=
  [Transaction.wr 0x410 4 (BitVec.ofNat 32 n)] ++
    (List.range (n * n)).map (fun k => Transaction.wr (4 * k) 4 (a k)) ++
    (List.range n).map (fun c => Transaction.wr (0x200 + 4 * c) 4 (b c)) ++
    [Transaction.wr 0x400 4 v]

theorem multiplyProgram_eq (n : Nat) (a b : Nat → Word) (v : Word) :
    multiplyProgram n a b v =
      loadAndStart n a b v ++ (List.range n).map (fun r => Transaction.rd (0x300 + 4 * r) 4) := by
  rw [multiplyProgram, loadAndStart]

/-- The writes of the program return no word and leave an enabled device with the product in the first `n`
cells of `C`. -/
theorem foldl_loadAndStart {n : Nat} (hn : n ≤ 10) (a b : Nat → Word) {v : Word}
    (h2 : v.getLsbD 2 = true) (h0 : v.getLsbD 0 = true) {s : State}
    (hmask : s.config.ctrlStoreMask.getLsbD 0 = true) :
    ∃ t, (loadAndStart n a b v).foldl State.after s = t ∧ t.enabled = true ∧
      t.returned = s.returned ∧ ∀ r < n, t.C[r]?.getD 0 = wrap32 (loadedDot n a b r) := by
  obtain ⟨A', hA, hcellsA⟩ := foldl_loadA a (Nat.mul_le_mul hn hn) (s.storeSize (BitVec.ofNat 32 n))
  obtain ⟨B', hB, hcellsB⟩ := foldl_loadB b hn { s.storeSize (BitVec.ofNat 32 n) with A := A' }
  let loaded : State := { s.storeSize (BitVec.ofNat 32 n) with A := A', B := B' }
  have hsize : loaded.size.val = n := by
    show (clampSize (BitVec.ofNat 32 n)).val = n
    rw [clampSize_val, BitVec.toNat_ofNat]
    omega
  refine ⟨loaded.control v, ?_, (control_enabled (s := loaded) hmask).trans h0, ?_, fun r hr => ?_⟩
  · simp only [loadAndStart, List.foldl_append, List.foldl_cons, List.foldl_nil, after_wrSize, hA, hB,
      after_wrControl]
    rfl
  · simp only [control_frame]
    rfl
  · have hproduct : (loaded.control v).C = loaded.multiply.C := by
      rw [control_of_start loaded h2 ((startAllowed_iff v loaded).mpr (.inl h0)), start_storeCtrl]
    have hr10 : r < 10 := Nat.lt_of_lt_of_le hr hn
    rw [hproduct, Vector.getElem?_eq_getElem hr10, Option.getD_some,
      multiply_C_eq_packedDot (hsize.symm ▸ hr) hr10, hsize, packedDot_of_loaded hcellsA hcellsB hr]

/-- Settles O37: the writes leave the product in `C`, and the reads answer it. -/
theorem loadStartReadGivesTheProduct : Obligations.LoadStartReadGivesTheProduct := by
  unfold Obligations.LoadStartReadGivesTheProduct
  intro s n a b v hn h2 h0 hmask hpending
  obtain ⟨t, ht, henabled, hreturned, hC⟩ := foldl_loadAndStart (s := s.drained) hn a b h2 h0 hmask
  refine ⟨_, runProgram_of_pending hpending, ?_⟩
  rw [multiplyProgram_eq, List.foldl_append, ht, foldl_readC henabled hn]
  refine ⟨?_, fun r hr hrn => ?_⟩
  · show t.returned ++ _ = _
    rw [hreturned]
    refine congrArg (s.returned ++ ·) (List.map_congr_left fun r hr => ?_)
    exact hC r (List.mem_range.mp hr)
  · have hcell : t.C[r] = wrap32 (loadedDot n a b r) := by
      rw [← hC r hrn, Vector.getElem?_eq_getElem hr, Option.getD_some]
    show t.C[r].toInt = loadedDot n a b r ↔ _
    rw [hcell]
    exact toInt_wrap32_eq_iff _

end Sys2Proof.Machine
end
